-- ==== Sys2Proof/Word.lean ====
section
/-! DEFINITION. The word types of the N320 and the bare names of its registers (00 R4, 07 R172, R174). -/
-- one theorem at a time: the package as one text must not ask for a thread per theorem
set_option Elab.async false
namespace Sys2Proof

/-- A byte (00 R4). -/
abbrev Byte := BitVec 8
/-- A 32-bit word: an instruction word, or one lane of a vector register. -/
abbrev Word := BitVec 32
/-- A 64-bit word: a scalar register, a package register, a virtual address. -/
abbrev Dword := BitVec 64
/-- The 128 bytes of one line, byte 0 lowest (02 R42). -/
abbrev LineData := BitVec 1024
/-- One bit per byte of a line. -/
abbrev LineMask := BitVec 128
/-- One bit per lane of a group (06 R151). -/
abbrev LaneMask := BitVec 96

/-- A vector register name v0 to v95 (07 R174). -/
abbrev VReg := Fin 96
/-- A scalar register name s0 to s31 (07 R174). -/
abbrev SReg := Fin 32
/-- A predicate register name p0 to p31 (07 R174). -/
abbrev PReg := Fin 32

end Sys2Proof
end

