-- ==== Sys2Proof/Syntax.lean ====
section
/-! DEFINITION. The instructions of the N320 as data: 324 words (07 R172 to R186) and 110 operations and events
of the opcode table, each with what arrives with it. -/
namespace Sys2Proof

/-- The mode that a word is decoded in: a group in user mode, a group in supervisor mode, a keystone sequencer
stream (07 R176). -/
inductive Mode where
  | user | sup | seq
deriving DecidableEq, Repr

/-- A branch condition of B and BL (07 R186). -/
inductive Cond where
  | al | eq | ne | lt | ge | le | gt | ltu | leu | geu | gtu | mz | mnz | mf | mnf | tmo | ntmo | nl | nnl
deriving DecidableEq, Repr

/-- HINT of VLD and VST: normal, .S, .NL (07 R178, 11 R271). -/
inductive Hint where
  | normal | s | nl
deriving DecidableEq, Repr

/-- The element format of VFH: fn[5] (10 R252). -/
inductive HFmt where
  | bf | hf
deriving DecidableEq, Repr

/-- An X-class operand: a vector register, or a scalar that every lane uses (07 R174). -/
inductive XOpnd where
  | v (r : VReg) | s (r : SReg)
deriving DecidableEq, Repr

/-- The address of VLD, VST and VATOM: sA + b, or the pair vA:vA+1 (07 R178, 11 R265). -/
inductive VAddr where
  | base (a : SReg) (b : XOpnd) | pair (a : VReg)
deriving DecidableEq, Repr

/-- The special registers of SRD and SWR (09 R240). -/
inductive SpecialReg where
  | laneid | groupid | memberid | clx | cly | clz | gridx | gridy | gridz | teamshape | live (k : Fin 3) | coreid
  | now | lct | ccr | fpcr | winbase | allot | sig | pinstat
  | param | lrec | lhandle | cpyseq | launchinfo
  | trapcode | trappc | trapaddr | trapmask (k : Fin 3)
  | uipend | uimask | uihg | uivec | uipc | uisavm (k : Fin 3) | uideny
  | uicnt (n : Fin 64) | uidata (n : Fin 64) | uirule (n : Fin 64)
deriving DecidableEq, Repr

/-- The privileged registers of SRDP and SWRP (15 R343). -/
inductive PrivReg where
  | ncw (n : Fin 16) | trapnpc | trapdisp | ctxnum | fltpend (k : Fin 3) | fltinsn | lselv | fqcmd
deriving DecidableEq, Repr

/-- What an atomic does with the memory value M and the operand V (11 R273, R276, R278, R285). -/
inductive AtomOp where
  | add | min | max | minu | maxu | and | or | xor | swap | cas | fadd | fmin | fmax
deriving DecidableEq, Repr

/-- The atomic part of a request: what it does, at which byte of the line, on how many bytes, with which operands. -/
structure AtomReq where
  op : AtomOp
  off : Nat
  size : Nat
  /-- the operand V; for CAS the value compared -/
  opnd : Dword
  /-- for CAS the new value -/
  new : Dword
  /-- the operand is poisoned (11 R275) -/
  psn : Bool
deriving DecidableEq, Repr

/-- A request to a home (05 R127): its kind is the constructor of Instr that carries it. -/
structure HomeReq where
  id : Nat
  /-- the requesting endpoint -/
  ep : Nat
  /-- PA[51:7] of the line -/
  line : Nat
  /-- CEN of the leaf, as seen in the request (02 R64) -/
  cen : Bool
  data : LineData
  mask : LineMask
  /-- a written byte carries poison (11 R272) -/
  psn : Bool
  atom : Option AtomReq
  /-- an untracked write-back or a non-tracking prefetch (01 R32, 11 R283) -/
  unt : Bool
deriving DecidableEq, Repr

/-- The kinds of answer a home gives (05 R127, R128, R132, R136). -/
inductive AnsKind where
  | data | grant | ack | result | skip | denied | lost
deriving DecidableEq, Repr

/-- An answer of a home to a request of this package (05 R127). -/
structure HomeAns where
  id : Nat
  kind : AnsKind
  data : LineData
  /-- the grant brings the data with it (05 R127 UPG) -/
  has : Bool
  psn : Bool
  res : Dword
deriving DecidableEq, Repr

/-- A recall from a home (05 R130): its kind is the constructor of Instr that carries it. -/
structure Recall where
  home : Nat
  id : Nat
  line : Nat
deriving DecidableEq, Repr

/-- An answer to a recall (05 R130). -/
structure RecallAns where
  id : Nat
  ep : Nat
  dirty : Option LineData
  psn : Bool
  kept : Bool
deriving DecidableEq, Repr

/-- A source stream of remote puts: span, package, context number (05 R149, R150). -/
structure StreamId where
  span : Nat
  pkg : Nat
  ctx : Nat
deriving DecidableEq, Repr

/-- One RPUT request: bytes of one aligned 64-byte block (11 R286, 05 R149). -/
structure PutMsg where
  id : Nat
  src : StreamId
  dctx : Nat
  key : Word
  /-- virtual address of the 64-byte block -/
  va : Nat
  data : BitVec 512
  mask : BitVec 64
  psn : Bool
  epoch : BitVec 8
  path : Fin 4
deriving DecidableEq, Repr

/-- One RPUTF: an ordered flag with the four counts of its epoch (03 R89, 05 R149). -/
structure FlagMsg where
  id : Nat
  src : StreamId
  dctx : Nat
  key : Word
  va : Nat
  data : Dword
  psn : Bool
  epoch : BitVec 8
  counts : List Nat
deriving DecidableEq, Repr

/-- One RGET request: bytes of one aligned 64-byte block (11 R286). -/
structure GetMsg where
  id : Nat
  src : StreamId
  dctx : Nat
  key : Word
  va : Nat
  mask : BitVec 64
deriving DecidableEq, Repr

/-- One RATOM lane (11 R287). -/
structure RAtomMsg where
  id : Nat
  src : StreamId
  dctx : Nat
  key : Word
  va : Nat
  op : AtomOp
  opnd : Dword
  psn : Bool
deriving DecidableEq, Repr

/-- The answer to an RGET request or a RATOM lane; ok = false is the one refusal of 01 R20. -/
structure RemoteAns where
  id : Nat
  ok : Bool
  data : BitVec 512
  psn : Bool
deriving DecidableEq, Repr

/-- An arrival at a context's interrupt registers (13 R313, R314). -/
structure Arrival where
  /-- the send that is answered, at endpoint `ep` of span `src.span`; 0 for none -/
  id : Nat
  cls : Nat
  ident : Nat
  src : StreamId
  ep : Nat
  /-- destination context number -/
  ctx : Nat
  vec : Nat
  data : Word
  /-- a kind-2 send behaves as an RPUTF: its key, epoch and counts (13 R318) -/
  flag : Option (Word × BitVec 8 × List Nat)
  /-- the sender's own context waits on nothing and takes UIDENY.DEN when refused (13 R313) -/
  den : Bool
deriving DecidableEq, Repr

/-- Which entries an invalidation drops (01 R36). -/
inductive InvKind where
  | page (va : Nat) | context | all
deriving DecidableEq, Repr

/-- An invalidation on its way to this package (01 R36, 15 R348). -/
structure InvMsg where
  id : Nat
  /-- the endpoint that waits for the acknowledgement -/
  ep : Nat
  ctx : Nat
  kind : InvKind
deriving DecidableEq, Repr

/-- Who sends a CANCEL: an endpoint of a span (05 R135, R150). -/
structure Canceller where
  span : Nat
  ep : Nat
deriving DecidableEq, Repr

/-- A flit has failed its CRC at a port (16 R359); again: no flit has come through on the link since the failure before (log 48). -/
structure LinkFail where
  port : Nat
  again : Bool
deriving DecidableEq, Repr

/-- What a page migration begins with (05 R144): a move of a page homed here, or another package's engine asks for a page of this
package's free ring. -/
inductive MoveStart where
  | own (page : Nat) | give (ep : Nat)
deriving DecidableEq, Repr
/-- The copying of a page that moves (05 R145): of one homed here, or another package, by its endpoint, writes one that it was given
here: its lines with their PSN, and its class. -/
inductive MoveCopy where
  | own (page : Nat) | write (ep : Nat) (page : Nat) (lines : List (LineData × Bool)) (pclass : Nat)
deriving DecidableEq, Repr
/-- The end of a move (05 R145): of a page homed here, or another package, by its endpoint, gives back a page that it was given
here. -/
inductive MoveFinish where
  | own (page : Nat) | back (ep : Nat) (page : Nat)
deriving DecidableEq, Repr

/-- The firmware image in the PCIe boot window (17 R370): header and body. -/
structure BootImage where
  keyX : BitVec 256
  keyY : BitVec 256
  sigR : BitVec 256
  sigS : BitVec 256
  body : List Byte
deriving DecidableEq, Repr


/-- The instructions, operations and events of the N320: one constructor per row of the opcode table.
The first 110 are the operations and events, which have no word and carry what arrives with them; then come the 324
instruction words (07 R177). -/
inductive Instr where
  /-- R352 -/
  | ctxcmdLoad (w : Dword)
  /-- R352 -/
  | ctxcmdPark (w : Dword)
  /-- R352 -/
  | ctxcmdForget (w : Dword)
  /-- R330 -/
  | evcmdEvict (w : Dword)
  /-- R330 -/
  | evcmdEnd (w : Dword)
  /-- R351 -/
  | fqcmdReplay (w : Dword)
  /-- R351 -/
  | fqcmdDrop (w : Dword)
  /-- R133 -/
  | pgcmdGo (w : Dword)
  /-- R133 -/
  | pgcmdSweep (w : Dword)
  /-- R366 -/
  | tlbicmdWrite (w : Dword)
  /-- R366 -/
  | tlbicmdRead (reader : Nat)
  /-- R124 -/
  | cstateWriteAlive (cell : Nat)
  /-- R124 -/
  | cstateWriteFree (cell : Nat)
  /-- R137 -/
  | cstateWriteDead (cell : Nat)
  /-- R166 -/
  | lportLaunch (slot : Nat) (ep : Nat) (w : Dword)
  /-- R373 -/
  | lportGraph (slot : Nat) (ep : Nat) (w : Dword)
  /-- R313 -/
  | uiportStore (slot : Nat) (ep : Nat) (size : Nat) (w : Dword)
  /-- R371 -/
  | measExtend (k : Nat) (d : BitVec 256)
  /-- R358 -/
  | raspop
  /-- R372 -/
  | attcmdGo (w : Dword)
  /-- R372 -/
  | attestationReportDone
  /-- R6 -/
  | registerWrite (off : Nat) (size : Nat) (w : Dword)
  /-- R129 -/
  | rds (r : HomeReq)
  /-- R129 -/
  | rdx (r : HomeReq)
  /-- R129 -/
  | upg (r : HomeReq)
  /-- R129 -/
  | wrf (r : HomeReq)
  /-- R82 -/
  | atf (r : HomeReq)
  /-- R129 -/
  | ntr (r : HomeReq)
  /-- R283 -/
  | prf (r : HomeReq)
  /-- R129 -/
  | wbk (r : HomeReq)
  /-- R135 -/
  | cancel (ep : Canceller) (id : Nat)
  /-- R130 -/
  | recallInv (r : Recall)
  /-- R130 -/
  | recallDown (r : Recall)
  /-- R130 -/
  | recallCopy (r : Recall)
  /-- R130 -/
  | recallDwb (r : Recall)
  /-- R130 -/
  | recallAnswer (a : RecallAns)
  /-- R127 -/
  | homeAnswer (a : HomeAns)
  /-- R128 -/
  | retry (id : Nat)
  /-- R128 -/
  | retryResend (id : Nat)
  /-- R145 -/
  | retryMigrating (id : Nat)
  /-- R145 -/
  | migrationDone (page : Nat)
  /-- R88 -/
  | rputDelivery (m : PutMsg)
  /-- R150 -/
  | rputfDelivery (m : FlagMsg)
  /-- R88 -/
  | rgetDelivery (m : GetMsg)
  /-- R88 -/
  | ratomDelivery (m : RAtomMsg)
  /-- R150 -/
  | epochClose (src : StreamId) (dst : Nat) (epoch : BitVec 8) (id : Nat)
  /-- R150 -/
  | epochCloseAck (id : Nat)
  /-- R149 -/
  | remoteAck (id : Nat) (ok : Bool)
  /-- R287 -/
  | remoteAnswer (a : RemoteAns)
  /-- R314 -/
  | uiArrival (a : Arrival)
  /-- R320 -/
  | uiSendAnswer (id : Nat) (recorded : Bool)
  /-- R316 -/
  | uiHandlerEntry (uid : Nat)
  /-- R137 -/
  | heartbeatSend
  /-- R124 -/
  | heartbeat (ep : Nat)
  /-- R124 -/
  | heartbeatTimeout (cell : Nat)
  /-- R137 -/
  | suspectReport (ep : Nat) (cell : Nat) (suspect : Bool)
  /-- R137 -/
  | monitorDeclare (cell : Nat)
  /-- R136 -/
  | deathDeclaration (cell : Nat) (inc : BitVec 16)
  /-- R140 -/
  | recoveryRegionScan (cell : Nat)
  /-- R359 -/
  | linkCrcError (f : LinkFail)
  /-- R359 -/
  | linkDown (port : Nat)
  /-- R37 -/
  | invalidation (m : InvMsg)
  /-- R38 -/
  | invalidationAck (id : Nat)
  /-- R26 -/
  | pageWalkComplete (id : Nat)
  /-- R135 -/
  | requestTimeout (id : Nat)
  /-- R56 -/
  | storeBufferTimeout (core : Nat) (id : Nat)
  /-- R56 -/
  | storeBufferAnswer (core : Nat) (id : Nat) (t : Nat)
  /-- R59 -/
  | l2WritePerform (id : Nat)
  /-- R238 -/
  | pinExpiry (team : Nat)
  /-- R234 -/
  | waitEvaluate (uid : Nat)
  /-- R233 -/
  | waitTimeout (uid : Nat)
  /-- R291 -/
  | baraWaitEnd (uid : Nat)
  /-- R279 -/
  | fenceComplete (uid : Nat)
  /-- R159 -/
  | sequencerGrant (core : Nat)
  /-- R164 -/
  | launchAccept (slot : Nat)
  /-- R162 -/
  | afterConditionRead (grid : Nat)
  /-- R325 -/
  | dispatchPlace
  /-- R324 -/
  | dispatchRetry
  /-- R328 -/
  | activeSetSwap (core : Nat)
  /-- R331 -/
  | clusterEvict (cluster : Nat)
  /-- R355 -/
  | evictRetry (cluster : Nat)
  /-- R333 -/
  | wakeEvaluate (cluster : Nat)
  /-- R171 -/
  | gridComplete (grid : Nat)
  /-- R171 -/
  | gridCompletionActions (grid : Nat)
  /-- R341 -/
  | trapEntry (uid : Nat)
  /-- R350 -/
  | fqRetry (slot : Nat)
  /-- R101 -/
  | copyUnitLand (copy : Nat)
  /-- R104 -/
  | copyLineWritePerformed (copy : Nat) (unit : Nat)
  /-- R109 -/
  | copyLandingsComplete (copy : Nat)
  /-- R109 -/
  | copyStampPerformed (copy : Nat)
  /-- R301 -/
  | matrixOpComplete (core : Nat)
  /-- R145 -/
  | migrationStart (m : MoveStart)
  /-- R145 -/
  | migrationCopyPage (m : MoveCopy)
  /-- R145 -/
  | migrationFinish (m : MoveFinish)
  /-- R142 -/
  | migWindowBoundary
  /-- R357 -/
  | eccRetry (line : Nat)
  /-- R65 -/
  | scrubPass (region : Nat)
  /-- R368 -/
  | powerAdjust
  /-- R368 -/
  | hotLimit
  /-- R361 -/
  | ageRecompute (die : Nat) (slack : BitVec 8) (eolh : Word)
  /-- R335 -/
  | infieldTestDrain (core : Nat)
  /-- R335 -/
  | infieldTestStart (core : Nat)
  /-- R335 -/
  | infieldTestEnd (core : Nat)
  /-- R335 -/
  | infieldTestTimeout (core : Nat)
  /-- R370 -/
  | reset (image : BootImage)
  /-- R53 -/
  | l2LoadAnswer (core : Nat) (line : Nat)
  /-- R15 -/
  | memberScratchpadAccess (id : Nat)
  /-- R401 -/
  | ctxcmdComplete
  /-- R368 -/
  | hotLimitClear
  /-- R60 -/
  | leaseExpiry (line : Nat)
  /-- R226 -/
  | nop
  /-- R227 -/
  | exit
  /-- R228 -/
  | lexit
  /-- R230 -/
  | yield
  /-- R229 -/
  | sys
  /-- R229 -/
  | brk
  /-- R242 -/
  | sigrst
  /-- R241 -/
  | fetchb
  /-- R231 -/
  | win (n : Fin 16)
  /-- R233 -/
  | wait (d : SReg) (a : SReg) (n : Fin 4) (all : Bool)
  /-- R236 -/
  | waitc
  /-- R237 -/
  | launch (d : SReg) (a : SReg)
  /-- R239 -/
  | srd (d : XOpnd) (i : SpecialReg)
  /-- R239 -/
  | swr (i : SpecialReg) (d : SReg)
  /-- R222 -/
  | jr (a : SReg)
  /-- R222 -/
  | jlr (d : SReg) (a : SReg)
  /-- R238 -/
  | pinon
  /-- R238 -/
  | pinoff
  /-- R215 -/
  | sadd (d : SReg) (a : SReg) (b : SReg)
  /-- R215 -/
  | ssub (d : SReg) (a : SReg) (b : SReg)
  /-- R215 -/
  | smul (d : SReg) (a : SReg) (b : SReg)
  /-- R215 -/
  | smulh (d : SReg) (a : SReg) (b : SReg)
  /-- R215 -/
  | smulhu (d : SReg) (a : SReg) (b : SReg)
  /-- R216 -/
  | sdiv (d : SReg) (a : SReg) (b : SReg)
  /-- R216 -/
  | sdivu (d : SReg) (a : SReg) (b : SReg)
  /-- R216 -/
  | srem (d : SReg) (a : SReg) (b : SReg)
  /-- R216 -/
  | sremu (d : SReg) (a : SReg) (b : SReg)
  /-- R215 -/
  | sand (d : SReg) (a : SReg) (b : SReg)
  /-- R215 -/
  | sor (d : SReg) (a : SReg) (b : SReg)
  /-- R215 -/
  | sxor (d : SReg) (a : SReg) (b : SReg)
  /-- R215 -/
  | sandn (d : SReg) (a : SReg) (b : SReg)
  /-- R215 -/
  | sshl (d : SReg) (a : SReg) (b : SReg)
  /-- R215 -/
  | sshr (d : SReg) (a : SReg) (b : SReg)
  /-- R215 -/
  | ssra (d : SReg) (a : SReg) (b : SReg)
  /-- R215 -/
  | smin (d : SReg) (a : SReg) (b : SReg)
  /-- R215 -/
  | smax (d : SReg) (a : SReg) (b : SReg)
  /-- R215 -/
  | sminu (d : SReg) (a : SReg) (b : SReg)
  /-- R215 -/
  | smaxu (d : SReg) (a : SReg) (b : SReg)
  /-- R215 -/
  | sclz (d : SReg) (a : SReg)
  /-- R215 -/
  | sctz (d : SReg) (a : SReg)
  /-- R215 -/
  | spopc (d : SReg) (a : SReg)
  /-- R215 -/
  | sbrev (d : SReg) (a : SReg)
  /-- R217 -/
  | sbfe (d : SReg) (a : SReg) (b : SReg)
  /-- R217 -/
  | sbfeu (d : SReg) (a : SReg) (b : SReg)
  /-- R217 -/
  | sbfi (d : SReg) (a : SReg) (b : SReg)
  /-- R218 -/
  | scmp (a : SReg) (b : SReg)
  /-- R215 -/
  | ssel (d : SReg) (a : SReg) (b : SReg)
  /-- R219 -/
  | saddi (d : SReg) (a : SReg) (i : BitVec 13)
  /-- R219 -/
  | sandi (d : SReg) (a : SReg) (i : BitVec 13)
  /-- R219 -/
  | sori (d : SReg) (a : SReg) (i : BitVec 13)
  /-- R219 -/
  | sxori (d : SReg) (a : SReg) (i : BitVec 13)
  /-- R219 -/
  | sshli (d : SReg) (a : SReg) (n : Fin 64)
  /-- R219 -/
  | sshri (d : SReg) (a : SReg) (n : Fin 64)
  /-- R219 -/
  | ssrai (d : SReg) (a : SReg) (n : Fin 64)
  /-- R219 -/
  | sroti (d : SReg) (a : SReg) (n : Fin 64)
  /-- R218 -/
  | scmpi (a : SReg) (i : BitVec 13)
  /-- R220 -/
  | slui (d : SReg) (i : BitVec 20)
  /-- R220 -/
  | slhi (d : SReg) (i : BitVec 20)
  /-- R221 -/
  | br (c : Cond) (o : BitVec 22)
  /-- R221 -/
  | bl (c : Cond) (o : BitVec 22)
  /-- R223 -/
  | sldb (d : SReg) (a : SReg) (i : BitVec 10)
  /-- R223 -/
  | sldh (d : SReg) (a : SReg) (i : BitVec 10)
  /-- R223 -/
  | sldw (d : SReg) (a : SReg) (i : BitVec 10)
  /-- R223 -/
  | sldd (d : SReg) (a : SReg) (i : BitVec 10)
  /-- R223 -/
  | sstb (d : SReg) (a : SReg) (i : BitVec 10)
  /-- R223 -/
  | ssth (d : SReg) (a : SReg) (i : BitVec 10)
  /-- R223 -/
  | sstw (d : SReg) (a : SReg) (i : BitVec 10)
  /-- R223 -/
  | sstd (d : SReg) (a : SReg) (i : BitVec 10)
  /-- R270 -/
  | vldb (h : Hint) (d : VReg) (adr : VAddr)
  /-- R270 -/
  | vldh (h : Hint) (d : VReg) (adr : VAddr)
  /-- R270 -/
  | vldw (h : Hint) (d : VReg) (adr : VAddr)
  /-- R270 -/
  | vldd (h : Hint) (d : VReg) (adr : VAddr)
  /-- R270 -/
  | vldq (h : Hint) (d : VReg) (adr : VAddr)
  /-- R270 -/
  | vstb (h : Hint) (d : VReg) (adr : VAddr)
  /-- R270 -/
  | vsth (h : Hint) (d : VReg) (adr : VAddr)
  /-- R270 -/
  | vstw (h : Hint) (d : VReg) (adr : VAddr)
  /-- R270 -/
  | vstd (h : Hint) (d : VReg) (adr : VAddr)
  /-- R270 -/
  | vstq (h : Hint) (d : VReg) (adr : VAddr)
  /-- R273 -/
  | atomAddW (d : VReg) (adr : VAddr)
  /-- R273 -/
  | atomAddD (d : VReg) (adr : VAddr)
  /-- R273 -/
  | atomMinW (d : VReg) (adr : VAddr)
  /-- R273 -/
  | atomMaxW (d : VReg) (adr : VAddr)
  /-- R273 -/
  | atomMinuW (d : VReg) (adr : VAddr)
  /-- R273 -/
  | atomMaxuW (d : VReg) (adr : VAddr)
  /-- R273 -/
  | atomMinD (d : VReg) (adr : VAddr)
  /-- R273 -/
  | atomMaxD (d : VReg) (adr : VAddr)
  /-- R273 -/
  | atomAndW (d : VReg) (adr : VAddr)
  /-- R273 -/
  | atomOrW (d : VReg) (adr : VAddr)
  /-- R273 -/
  | atomXorW (d : VReg) (adr : VAddr)
  /-- R273 -/
  | atomAndD (d : VReg) (adr : VAddr)
  /-- R273 -/
  | atomOrD (d : VReg) (adr : VAddr)
  /-- R273 -/
  | atomXorD (d : VReg) (adr : VAddr)
  /-- R273 -/
  | atomSwapW (d : VReg) (adr : VAddr)
  /-- R273 -/
  | atomSwapD (d : VReg) (adr : VAddr)
  /-- R273 -/
  | atomCasW (d : VReg) (adr : VAddr)
  /-- R273 -/
  | atomCasD (d : VReg) (adr : VAddr)
  /-- R273 -/
  | atomFaddF32 (d : VReg) (adr : VAddr)
  /-- R273 -/
  | atomFaddF64 (d : VReg) (adr : VAddr)
  /-- R273 -/
  | atomFminF32 (d : VReg) (adr : VAddr)
  /-- R273 -/
  | atomFmaxF32 (d : VReg) (adr : VAddr)
  /-- R276 -/
  | spldb (d : VReg) (a : SReg) (b : XOpnd)
  /-- R276 -/
  | spldh (d : VReg) (a : SReg) (b : XOpnd)
  /-- R276 -/
  | spldw (d : VReg) (a : SReg) (b : XOpnd)
  /-- R276 -/
  | spldd (d : VReg) (a : SReg) (b : XOpnd)
  /-- R276 -/
  | spldq (d : VReg) (a : SReg) (b : XOpnd)
  /-- R276 -/
  | spstb (d : VReg) (a : SReg) (b : XOpnd)
  /-- R276 -/
  | spsth (d : VReg) (a : SReg) (b : XOpnd)
  /-- R276 -/
  | spstw (d : VReg) (a : SReg) (b : XOpnd)
  /-- R276 -/
  | spstd (d : VReg) (a : SReg) (b : XOpnd)
  /-- R276 -/
  | spstq (d : VReg) (a : SReg) (b : XOpnd)
  /-- R276 -/
  | spatomAdd (d : VReg) (a : SReg) (b : XOpnd)
  /-- R276 -/
  | spatomMin (d : VReg) (a : SReg) (b : XOpnd)
  /-- R276 -/
  | spatomMax (d : VReg) (a : SReg) (b : XOpnd)
  /-- R276 -/
  | spatomSwap (d : VReg) (a : SReg) (b : XOpnd)
  /-- R276 -/
  | spatomCas (d : VReg) (a : SReg) (b : XOpnd)
  /-- R276 -/
  | spatomFadd (d : VReg) (a : SReg) (b : XOpnd)
  /-- R279 -/
  | fenceCore
  /-- R279 -/
  | fencePkg
  /-- R280 -/
  | fenceSpan
  /-- R282 -/
  | cflush (a : SReg) (b : Option SReg)
  /-- R282 -/
  | cinv (a : SReg) (b : Option SReg)
  /-- R283 -/
  | pref (a : SReg) (b : Option SReg)
  /-- R284 -/
  | icinv (a : SReg) (b : Option SReg)
  /-- R285 -/
  | rput (d : VReg) (a : SReg) (b : XOpnd)
  /-- R285 -/
  | rputf (d : VReg) (a : SReg) (b : XOpnd)
  /-- R287 -/
  | rget (d : VReg) (a : SReg) (b : XOpnd)
  /-- R287 -/
  | ratom (d : VReg) (a : SReg) (b : XOpnd)
  /-- R278 -/
  | satomAdd (d : SReg) (a : SReg)
  /-- R278 -/
  | satomSwap (d : SReg) (a : SReg)
  /-- R278 -/
  | satomCas (d : SReg) (a : SReg) (b : SReg)
  /-- R278 -/
  | satomMin (d : SReg) (a : SReg)
  /-- R278 -/
  | satomMax (d : SReg) (a : SReg)
  /-- R278 -/
  | satomOr (d : SReg) (a : SReg)
  /-- R278 -/
  | satomAnd (d : SReg) (a : SReg)
  /-- R247 -/
  | vadd (d : VReg) (a : VReg) (b : XOpnd)
  /-- R247 -/
  | vsub (d : VReg) (a : VReg) (b : XOpnd)
  /-- R247 -/
  | vmul (d : VReg) (a : VReg) (b : XOpnd)
  /-- R247 -/
  | vmulh (d : VReg) (a : VReg) (b : XOpnd)
  /-- R247 -/
  | vmulhu (d : VReg) (a : VReg) (b : XOpnd)
  /-- R247 -/
  | vmad (d : VReg) (a : VReg) (b : XOpnd)
  /-- R247 -/
  | vand (d : VReg) (a : VReg) (b : XOpnd)
  /-- R247 -/
  | vor (d : VReg) (a : VReg) (b : XOpnd)
  /-- R247 -/
  | vxor (d : VReg) (a : VReg) (b : XOpnd)
  /-- R247 -/
  | vandn (d : VReg) (a : VReg) (b : XOpnd)
  /-- R247 -/
  | vshl (d : VReg) (a : VReg) (b : XOpnd)
  /-- R247 -/
  | vshr (d : VReg) (a : VReg) (b : XOpnd)
  /-- R247 -/
  | vsra (d : VReg) (a : VReg) (b : XOpnd)
  /-- R247 -/
  | vmin (d : VReg) (a : VReg) (b : XOpnd)
  /-- R247 -/
  | vminu (d : VReg) (a : VReg) (b : XOpnd)
  /-- R247 -/
  | vmax (d : VReg) (a : VReg) (b : XOpnd)
  /-- R247 -/
  | vmaxu (d : VReg) (a : VReg) (b : XOpnd)
  /-- R247 -/
  | vabs (d : VReg) (a : VReg)
  /-- R247 -/
  | vneg (d : VReg) (a : VReg)
  /-- R247 -/
  | vclz (d : VReg) (a : VReg)
  /-- R247 -/
  | vpopc (d : VReg) (a : VReg)
  /-- R247 -/
  | vbrev (d : VReg) (a : VReg)
  /-- R248 -/
  | vbfe (d : VReg) (a : VReg) (b : XOpnd)
  /-- R248 -/
  | vbfeu (d : VReg) (a : VReg) (b : XOpnd)
  /-- R248 -/
  | vbfi (d : VReg) (a : VReg) (b : XOpnd)
  /-- R247 -/
  | vadd64 (d : VReg) (a : VReg) (b : XOpnd)
  /-- R247 -/
  | vsub64 (d : VReg) (a : VReg) (b : XOpnd)
  /-- R247 -/
  | vmul64 (d : VReg) (a : VReg) (b : XOpnd)
  /-- R247 -/
  | vshl64 (d : VReg) (a : VReg) (b : XOpnd)
  /-- R247 -/
  | vshr64 (d : VReg) (a : VReg) (b : XOpnd)
  /-- R247 -/
  | vsra64 (d : VReg) (a : VReg) (b : XOpnd)
  /-- R247 -/
  | vdp4 (d : VReg) (a : VReg) (b : XOpnd)
  /-- R247 -/
  | vdp4u (d : VReg) (a : VReg) (b : XOpnd)
  /-- R247 -/
  | vmov (d : VReg) (a : XOpnd)
  /-- R243 -/
  | sigchk (i : BitVec 20)
  /-- R249 -/
  | vmovi (d : VReg) (i : BitVec 20)
  /-- R250 -/
  | vfadd (d : VReg) (a : VReg) (b : XOpnd)
  /-- R250 -/
  | vfsub (d : VReg) (a : VReg) (b : XOpnd)
  /-- R250 -/
  | vfmul (d : VReg) (a : VReg) (b : XOpnd)
  /-- R250 -/
  | vfma (d : VReg) (a : VReg) (b : XOpnd)
  /-- R250 -/
  | vfms (d : VReg) (a : VReg) (b : XOpnd)
  /-- R250 -/
  | vfnma (d : VReg) (a : VReg) (b : XOpnd)
  /-- R251 -/
  | vfmin (d : VReg) (a : VReg) (b : XOpnd)
  /-- R251 -/
  | vfmax (d : VReg) (a : VReg) (b : XOpnd)
  /-- R250 -/
  | vfabs (d : VReg) (a : VReg)
  /-- R250 -/
  | vfneg (d : VReg) (a : VReg)
  /-- R250 -/
  | vfcpsgn (d : VReg) (a : VReg) (b : XOpnd)
  /-- R250 -/
  | vfscale (d : VReg) (a : VReg) (b : XOpnd)
  /-- R250 -/
  | vfrndn (d : VReg) (a : VReg)
  /-- R250 -/
  | vfrndz (d : VReg) (a : VReg)
  /-- R250 -/
  | vfrndu (d : VReg) (a : VReg)
  /-- R250 -/
  | vfrndd (d : VReg) (a : VReg)
  /-- R250 -/
  | vfdiv (d : VReg) (a : VReg) (b : XOpnd)
  /-- R250 -/
  | vfsqrt (d : VReg) (a : VReg)
  /-- R250 -/
  | vfrcp (d : VReg) (a : VReg)
  /-- R250 -/
  | vfrsq (d : VReg) (a : VReg)
  /-- R250 -/
  | vdadd (d : VReg) (a : VReg) (b : XOpnd)
  /-- R250 -/
  | vdsub (d : VReg) (a : VReg) (b : XOpnd)
  /-- R250 -/
  | vdmul (d : VReg) (a : VReg) (b : XOpnd)
  /-- R250 -/
  | vdfma (d : VReg) (a : VReg) (b : XOpnd)
  /-- R250 -/
  | vdfms (d : VReg) (a : VReg) (b : XOpnd)
  /-- R250 -/
  | vdfnma (d : VReg) (a : VReg) (b : XOpnd)
  /-- R251 -/
  | vdmin (d : VReg) (a : VReg) (b : XOpnd)
  /-- R251 -/
  | vdmax (d : VReg) (a : VReg) (b : XOpnd)
  /-- R250 -/
  | vdabs (d : VReg) (a : VReg)
  /-- R250 -/
  | vdneg (d : VReg) (a : VReg)
  /-- R250 -/
  | vdscale (d : VReg) (a : VReg) (b : XOpnd)
  /-- R250 -/
  | vdrndn (d : VReg) (a : VReg)
  /-- R250 -/
  | vdrndz (d : VReg) (a : VReg)
  /-- R250 -/
  | vddiv (d : VReg) (a : VReg) (b : XOpnd)
  /-- R250 -/
  | vdsqrt (d : VReg) (a : VReg)
  /-- R250 -/
  | vdrcp (d : VReg) (a : VReg)
  /-- R250 -/
  | vdrsq (d : VReg) (a : VReg)
  /-- R252 -/
  | vhadd (t : HFmt) (d : VReg) (a : VReg) (b : XOpnd)
  /-- R252 -/
  | vhsub (t : HFmt) (d : VReg) (a : VReg) (b : XOpnd)
  /-- R252 -/
  | vhmul (t : HFmt) (d : VReg) (a : VReg) (b : XOpnd)
  /-- R252 -/
  | vhfma (t : HFmt) (d : VReg) (a : VReg) (b : XOpnd)
  /-- R252 -/
  | vhmin (t : HFmt) (d : VReg) (a : VReg) (b : XOpnd)
  /-- R252 -/
  | vhmax (t : HFmt) (d : VReg) (a : VReg) (b : XOpnd)
  /-- R252 -/
  | vhdot2 (t : HFmt) (d : VReg) (a : VReg) (b : XOpnd)
  /-- R253 -/
  | vcvtF64F32 (d : VReg) (a : VReg)
  /-- R253 -/
  | vcvtF32F64 (d : VReg) (a : VReg)
  /-- R253 -/
  | vcvtBf16F32 (d : VReg) (a : VReg) (b : XOpnd)
  /-- R253 -/
  | vcvtF32Bf16 (d : VReg) (a : VReg)
  /-- R253 -/
  | vcvtF16F32 (d : VReg) (a : VReg) (b : XOpnd)
  /-- R253 -/
  | vcvtF32F16 (d : VReg) (a : VReg)
  /-- R253 -/
  | vcvtE4m3F32 (d : VReg) (a : VReg) (b : XOpnd)
  /-- R253 -/
  | vcvtE5m2F32 (d : VReg) (a : VReg) (b : XOpnd)
  /-- R253 -/
  | vcvtF32E4m3 (d : VReg) (a : VReg)
  /-- R253 -/
  | vcvtF32E5m2 (d : VReg) (a : VReg)
  /-- R253 -/
  | vcvtS32F32 (d : VReg) (a : VReg)
  /-- R253 -/
  | vcvtU32F32 (d : VReg) (a : VReg)
  /-- R253 -/
  | vcvtF32S32 (d : VReg) (a : VReg)
  /-- R253 -/
  | vcvtF32U32 (d : VReg) (a : VReg)
  /-- R253 -/
  | vcvtS64F64 (d : VReg) (a : VReg)
  /-- R253 -/
  | vcvtF64S64 (d : VReg) (a : VReg)
  /-- R253 -/
  | vcvtS32F64 (d : VReg) (a : VReg)
  /-- R253 -/
  | vcvtF64S32 (d : VReg) (a : VReg)
  /-- R254 -/
  | vfclass (d : VReg) (a : VReg)
  /-- R254 -/
  | vdclass (d : VReg) (a : VReg)
  /-- R255 -/
  | vexp2 (d : VReg) (a : VReg)
  /-- R255 -/
  | vlog2 (d : VReg) (a : VReg)
  /-- R255 -/
  | vsin (d : VReg) (a : VReg)
  /-- R255 -/
  | vcos (d : VReg) (a : VReg)
  /-- R257 -/
  | teval (d : VReg) (a : VReg)
  /-- R256 -/
  | tld (a : VReg) (b : SReg)
  /-- R259 -/
  | vicmpEq (d : PReg) (a : VReg) (b : XOpnd)
  /-- R259 -/
  | vicmpNe (d : PReg) (a : VReg) (b : XOpnd)
  /-- R259 -/
  | vicmpLt (d : PReg) (a : VReg) (b : XOpnd)
  /-- R259 -/
  | vicmpLe (d : PReg) (a : VReg) (b : XOpnd)
  /-- R259 -/
  | vicmpLtu (d : PReg) (a : VReg) (b : XOpnd)
  /-- R259 -/
  | vicmpLeu (d : PReg) (a : VReg) (b : XOpnd)
  /-- R259 -/
  | vicmp64Eq (d : PReg) (a : VReg) (b : XOpnd)
  /-- R259 -/
  | vicmp64Lt (d : PReg) (a : VReg) (b : XOpnd)
  /-- R259 -/
  | vicmp64Ltu (d : PReg) (a : VReg) (b : XOpnd)
  /-- R259 -/
  | vfcmpEq (d : PReg) (a : VReg) (b : XOpnd)
  /-- R259 -/
  | vfcmpNe (d : PReg) (a : VReg) (b : XOpnd)
  /-- R259 -/
  | vfcmpLt (d : PReg) (a : VReg) (b : XOpnd)
  /-- R259 -/
  | vfcmpLe (d : PReg) (a : VReg) (b : XOpnd)
  /-- R259 -/
  | vfcmpUn (d : PReg) (a : VReg) (b : XOpnd)
  /-- R259 -/
  | vdcmpEq (d : PReg) (a : VReg) (b : XOpnd)
  /-- R259 -/
  | vdcmpNe (d : PReg) (a : VReg) (b : XOpnd)
  /-- R259 -/
  | vdcmpLt (d : PReg) (a : VReg) (b : XOpnd)
  /-- R259 -/
  | vdcmpLe (d : PReg) (a : VReg) (b : XOpnd)
  /-- R259 -/
  | vdcmpUn (d : PReg) (a : VReg) (b : XOpnd)
  /-- R260 -/
  | pand (d : PReg) (a : PReg) (b : PReg)
  /-- R260 -/
  | por (d : PReg) (a : PReg) (b : PReg)
  /-- R260 -/
  | pxor (d : PReg) (a : PReg) (b : PReg)
  /-- R260 -/
  | pandn (d : PReg) (a : PReg) (b : PReg)
  /-- R260 -/
  | pnot (d : PReg) (a : PReg)
  /-- R260 -/
  | pset (d : PReg) (a : XOpnd)
  /-- R260 -/
  | psave (d : VReg) (a : PReg)
  /-- R260 -/
  | prest (d : PReg) (a : VReg)
  /-- R261 -/
  | ballot (d : SReg) (a : PReg)
  /-- R261 -/
  | mandp (a : PReg)
  /-- R261 -/
  | mandnp (a : PReg)
  /-- R261 -/
  | msetp (a : PReg)
  /-- R261 -/
  | pcnt (d : SReg) (a : PReg)
  /-- R262 -/
  | vperm (d : VReg) (a : VReg) (b : XOpnd)
  /-- R262 -/
  | vshflx (d : VReg) (a : VReg) (b : XOpnd)
  /-- R262 -/
  | vshflu (d : VReg) (a : VReg) (b : XOpnd)
  /-- R262 -/
  | vshfld (d : VReg) (a : VReg) (b : XOpnd)
  /-- R262 -/
  | vbcast (d : VReg) (a : VReg) (b : SReg)
  /-- R263 -/
  | vredAdd (d : VReg) (a : VReg)
  /-- R263 -/
  | vredMin (d : VReg) (a : VReg)
  /-- R263 -/
  | vredMax (d : VReg) (a : VReg)
  /-- R263 -/
  | vredAnd (d : VReg) (a : VReg)
  /-- R263 -/
  | vredOr (d : VReg) (a : VReg)
  /-- R263 -/
  | vredXor (d : VReg) (a : VReg)
  /-- R213 -/
  | vfredAdd (d : VReg) (a : VReg)
  /-- R263 -/
  | vscanAdd (d : VReg) (a : VReg)
  /-- R263 -/
  | vlane (d : VReg)
  /-- R289 -/
  | cpy (c : SReg) (p : PReg) (a : XOpnd) (b : XOpnd)
  /-- R290 -/
  | swinit (a : SReg) (b : SReg)
  /-- R291 -/
  | bara (d : SReg) (a : SReg) (w : Bool)
  /-- R291 -/
  | bard (d : SReg) (a : SReg)
  /-- R292 -/
  | wmrd (d : SReg) (n : Fin 16)
  /-- R293 -/
  | wmclr (n : Fin 16)
  /-- R293 -/
  | wmabort (n : Fin 16)
  /-- R296 -/
  | mfmt (a : SReg)
  /-- R300 -/
  | mma (d : Fin 4) (a : Fin 8) (b : Fin 8)
  /-- R300 -/
  | mmaL (d : Fin 4) (a : Fin 8) (b : Fin 8)
  /-- R301 -/
  | mzero (d : Fin 4)
  /-- R303 -/
  | acrd (d : VReg) (n : Fin 4) (wide : Bool) (b : SReg)
  /-- R303 -/
  | acwr (d : VReg) (n : Fin 4) (wide : Bool) (b : SReg)
  /-- R302 -/
  | tbw (d : VReg) (n : Fin 8) (b : SReg)
  /-- R302 -/
  | tbr (d : VReg) (n : Fin 8) (b : SReg)
  /-- R304 -/
  | mpert (a : SReg) (b : SReg)
  /-- R305 -/
  | msync
  /-- R307 -/
  | seqgo (a : SReg)
  /-- R264 -/
  | vsel (p : PReg) (d : VReg) (a : VReg) (b : XOpnd)
  /-- R264 -/
  | vpmov (p : PReg) (d : VReg) (b : XOpnd)
  /-- R320 -/
  | uisend (a : SReg) (b : SReg)
  /-- R320 -/
  | uisendw (a : SReg) (b : SReg)
  /-- R322 -/
  | uiret
  /-- R321 -/
  | uiack (d : SReg) (b : SReg)
  /-- R321 -/
  | uipoll (d : SReg)
  /-- R347 -/
  | trapret
  /-- R345 -/
  | srdp (d : SReg) (i : PrivReg)
  /-- R345 -/
  | swrp (i : PrivReg) (d : SReg)
  /-- R346 -/
  | lsel (a : SReg)
  /-- R346 -/
  | lrdv (d : SReg) (a : VReg)
  /-- R346 -/
  | lwrv (d : SReg) (a : VReg)
  /-- R346 -/
  | lrdp (d : SReg) (a : PReg)
  /-- R346 -/
  | lwrp (d : SReg) (a : PReg)
  /-- R348 -/
  | tlbinv (a : SReg) (b : SReg)
  /-- R348 -/
  | tlbsync
  /-- R347 -/
  | freplay
  /-- R347 -/
  | fdrop
  /-- R349 -/
  | halt (a : SReg)
deriving DecidableEq, Repr

end Sys2Proof
end

