-- ==== Sys2Proof/Config.lean ====
section
/-! DEFINITION. What the spec leaves to an implementation or leaves open: opaque constants that no proof can see into
(free values), and the few figures of time that the model fixes (log 2, log 3). -/
namespace Sys2Proof.Config

/-- The fabric path a request takes (05 R148: the source I/O die's routing table assigns it; log 3). The argument is
State.free, a counter; the answer is reduced over the paths that are left. -/
opaque freePath : Nat → Nat
/-- The Viaduct port that a path to a destination uses (05 R148, 17 R364: the routing table assigns it; log 3). The arguments are
the destination, 1,024 times its span plus its package, and the path. -/
opaque freePort : Nat → Nat → Fin 24
/-- Measured package power in watts, at the n-th comparison (17 R368; log 3). -/
opaque freePower : Nat → Nat
/-- The 32-byte key hash fused in the package (17 R370; log 3). -/
opaque keyHash : BitVec 256
/-- The attestation signature (r, s) over a digest, by the key fused in the package (17 R372; log 3). -/
opaque attSign : BitVec 256 → BitVec 512
/-- The bytes of a line whose data symbols cannot be corrected, as the retry reads them
(16 R357 leaves the data bytes as read; log 3). The argument is State.free. -/
opaque freeLine : Nat → LineData

/-- The page, in units of 64 KiB of its package, that another package gives from its free ring, if it can
(05 R144: the ring is that package's; log 3). The argument is State.free. -/
opaque givePage : Nat → Option (BitVec 23)
/-- Whether the write of a moved page to its new place succeeds (05 R145: "writing N fails"; log 3). The argument is
State.free. -/
opaque pageWritten : Nat → Bool

/-- Ticks from a miss in the L1 to the answer of the package L2 (02 R43 gives cycles as design values; log 2). -/
def l2Ticks : Nat := 16
/-- Ticks that a page walk takes (log 2). -/
def walkTicks : Nat := 16
/-- Ticks for an access to reach another member's scratchpad (log 2). -/
def meshTicks : Nat := 8
/-- Ticks between two looks at something that waits on the outside world (log 2). -/
def pollTicks : Nat := 16

end Sys2Proof.Config
end

