-- ==== Sys2Proof/Decode.lean ====
section
/-! DEFINITION. Instruction words: the operands each instruction names, the decoder of 07 R172 to R186 with its checks
in the order of R184, and the encoder. -/
noncomputable section

namespace Sys2Proof

/-- An operand by its class (07 R174): what it names and how much. -/
inductive Opnd where
  /-- n consecutive vector registers, aligned to n (V, V2, V4) -/
  | v (r : VReg) (n : Nat)
  /-- a run of five vector registers or scalars (07 R179) -/
  | run5 (o : XOpnd)
  /-- n consecutive scalars (07 R175) -/
  | s (r : SReg) (n : Nat)
  | p (r : PReg)
  /-- a vector register named through the frozen user window (15 R346) -/
  | frozen (r : VReg)
deriving DecidableEq, Repr

/-- An operand with the directions in which the instruction uses it. -/
structure Use where
  o : Opnd
  rd : Bool
  wr : Bool
deriving DecidableEq, Repr

/-- Uses, by class and direction: r reads, w writes, m does both. -/
def rS (r : SReg) : Use := ⟨.s r 1, true, false⟩
def wS (r : SReg) : Use := ⟨.s r 1, false, true⟩
def mS (r : SReg) : Use := ⟨.s r 1, true, true⟩
def rSn (r : SReg) (n : Nat) : Use := ⟨.s r n, true, false⟩
def wSn (r : SReg) (n : Nat) : Use := ⟨.s r n, false, true⟩
def rV (r : VReg) (n : Nat) : Use := ⟨.v r n, true, false⟩
def wV (r : VReg) (n : Nat) : Use := ⟨.v r n, false, true⟩
def mV (r : VReg) (n : Nat) : Use := ⟨.v r n, true, true⟩
def rP (r : PReg) : Use := ⟨.p r, true, false⟩
def wP (r : PReg) : Use := ⟨.p r, false, true⟩
def rF (r : VReg) : Use := ⟨.frozen r, true, false⟩
def wF (r : VReg) : Use := ⟨.frozen r, false, true⟩
def rRun5 (o : XOpnd) : Use := ⟨.run5 o, true, false⟩

/-- Class X: 32 bits (07 R174). -/
def XOpnd.x32 : XOpnd → Opnd
  | .v r => .v r 1
  | .s r => .s r 1
/-- Class X with a 64-bit operand: a vector names a pair (07 R174). -/
def XOpnd.x64 : XOpnd → Opnd
  | .v r => .v r 2
  | .s r => .s r 1
def rX (o : XOpnd) : Use := ⟨o.x32, true, false⟩
def wX (o : XOpnd) : Use := ⟨o.x32, false, true⟩
def rX64 (o : XOpnd) : Use := ⟨o.x64, true, false⟩
/-- The registers that form an address (11 R265). -/
def VAddr.uses : VAddr → List Use
  | .base a b => [rS a, rX64 b]
  | .pair a => [rV a 2]
/-- The optional length scalar of CFLUSH, CINV, PREF and ICINV. -/
def optS : Option SReg → List Use
  | none => []
  | some b => [rS b]


/-- The operands of each instruction (09 R215 to R243, 10 R244 to R264, 11 R265 to R287, 12 R288, 13 R319, 15 R344);
events name none. -/
def Instr.uses : Instr → List Use
  | .nop => []
  | .exit => []
  | .lexit => []
  | .yield => []
  | .sys => []
  | .brk => []
  | .sigrst => []
  | .fetchb => []
  | .win _ => []
  | .wait d a n _ => [rSn d (2 * (n.val + 1)), rS a]
  | .waitc => []
  | .launch d a => [wS d, rS a]
  | .srd d _ => [wX d]
  | .swr _ d => [rS d]
  | .jr a => [rS a]
  | .jlr d a => [wS d, rS a]
  | .pinon => []
  | .pinoff => []
  | .sadd d a b => [wS d, rS a, rS b]
  | .ssub d a b => [wS d, rS a, rS b]
  | .smul d a b => [wS d, rS a, rS b]
  | .smulh d a b => [wS d, rS a, rS b]
  | .smulhu d a b => [wS d, rS a, rS b]
  | .sdiv d a b => [wS d, rS a, rS b]
  | .sdivu d a b => [wS d, rS a, rS b]
  | .srem d a b => [wS d, rS a, rS b]
  | .sremu d a b => [wS d, rS a, rS b]
  | .sand d a b => [wS d, rS a, rS b]
  | .sor d a b => [wS d, rS a, rS b]
  | .sxor d a b => [wS d, rS a, rS b]
  | .sandn d a b => [wS d, rS a, rS b]
  | .sshl d a b => [wS d, rS a, rS b]
  | .sshr d a b => [wS d, rS a, rS b]
  | .ssra d a b => [wS d, rS a, rS b]
  | .smin d a b => [wS d, rS a, rS b]
  | .smax d a b => [wS d, rS a, rS b]
  | .sminu d a b => [wS d, rS a, rS b]
  | .smaxu d a b => [wS d, rS a, rS b]
  | .sclz d a => [wS d, rS a]
  | .sctz d a => [wS d, rS a]
  | .spopc d a => [wS d, rS a]
  | .sbrev d a => [wS d, rS a]
  | .sbfe d a b => [wS d, rS a, rS b]
  | .sbfeu d a b => [wS d, rS a, rS b]
  | .sbfi d a b => [mS d, rS a, rS b]
  | .scmp a b => [rS a, rS b]
  | .ssel d a b => [wS d, rS a, rS b]
  | .saddi d a _ => [wS d, rS a]
  | .sandi d a _ => [wS d, rS a]
  | .sori d a _ => [wS d, rS a]
  | .sxori d a _ => [wS d, rS a]
  | .sshli d a _ => [wS d, rS a]
  | .sshri d a _ => [wS d, rS a]
  | .ssrai d a _ => [wS d, rS a]
  | .sroti d a _ => [wS d, rS a]
  | .scmpi a _ => [rS a]
  | .slui d _ => [wS d]
  | .slhi d _ => [mS d]
  | .br _ _ => []
  | .bl _ _ => [wS 28]
  | .sldb d a _ => [wS d, rS a]
  | .sldh d a _ => [wS d, rS a]
  | .sldw d a _ => [wS d, rS a]
  | .sldd d a _ => [wS d, rS a]
  | .sstb d a _ => [rS d, rS a]
  | .ssth d a _ => [rS d, rS a]
  | .sstw d a _ => [rS d, rS a]
  | .sstd d a _ => [rS d, rS a]
  | .vldb _ d adr => wV d 1 :: adr.uses
  | .vldh _ d adr => wV d 1 :: adr.uses
  | .vldw _ d adr => wV d 1 :: adr.uses
  | .vldd _ d adr => wV d 2 :: adr.uses
  | .vldq _ d adr => wV d 4 :: adr.uses
  | .vstb _ d adr => rV d 1 :: adr.uses
  | .vsth _ d adr => rV d 1 :: adr.uses
  | .vstw _ d adr => rV d 1 :: adr.uses
  | .vstd _ d adr => rV d 2 :: adr.uses
  | .vstq _ d adr => rV d 4 :: adr.uses
  | .atomAddW d adr => mV d 1 :: adr.uses
  | .atomAddD d adr => mV d 2 :: adr.uses
  | .atomMinW d adr => mV d 1 :: adr.uses
  | .atomMaxW d adr => mV d 1 :: adr.uses
  | .atomMinuW d adr => mV d 1 :: adr.uses
  | .atomMaxuW d adr => mV d 1 :: adr.uses
  | .atomMinD d adr => mV d 2 :: adr.uses
  | .atomMaxD d adr => mV d 2 :: adr.uses
  | .atomAndW d adr => mV d 1 :: adr.uses
  | .atomOrW d adr => mV d 1 :: adr.uses
  | .atomXorW d adr => mV d 1 :: adr.uses
  | .atomAndD d adr => mV d 2 :: adr.uses
  | .atomOrD d adr => mV d 2 :: adr.uses
  | .atomXorD d adr => mV d 2 :: adr.uses
  | .atomSwapW d adr => mV d 1 :: adr.uses
  | .atomSwapD d adr => mV d 2 :: adr.uses
  | .atomCasW d adr => mV d 2 :: adr.uses
  | .atomCasD d adr => mV d 4 :: adr.uses
  | .atomFaddF32 d adr => mV d 1 :: adr.uses
  | .atomFaddF64 d adr => mV d 2 :: adr.uses
  | .atomFminF32 d adr => mV d 1 :: adr.uses
  | .atomFmaxF32 d adr => mV d 1 :: adr.uses
  | .spldb d a b => [wV d 1, rS a, rX b]
  | .spldh d a b => [wV d 1, rS a, rX b]
  | .spldw d a b => [wV d 1, rS a, rX b]
  | .spldd d a b => [wV d 2, rS a, rX b]
  | .spldq d a b => [wV d 4, rS a, rX b]
  | .spstb d a b => [rV d 1, rS a, rX b]
  | .spsth d a b => [rV d 1, rS a, rX b]
  | .spstw d a b => [rV d 1, rS a, rX b]
  | .spstd d a b => [rV d 2, rS a, rX b]
  | .spstq d a b => [rV d 4, rS a, rX b]
  | .spatomAdd d a b => [mV d 1, rS a, rX b]
  | .spatomMin d a b => [mV d 1, rS a, rX b]
  | .spatomMax d a b => [mV d 1, rS a, rX b]
  | .spatomSwap d a b => [mV d 1, rS a, rX b]
  | .spatomCas d a b => [mV d 2, rS a, rX b]
  | .spatomFadd d a b => [mV d 1, rS a, rX b]
  | .fenceCore => []
  | .fencePkg => []
  | .fenceSpan => []
  | .cflush a b => rS a :: optS b
  | .cinv a b => rS a :: optS b
  | .pref a b => rS a :: optS b
  | .icinv a b => rS a :: optS b
  | .rput d a b => [rV d 1, rS a, rX64 b]
  | .rputf d a b => [rV d 2, rS a, rX64 b]
  | .rget d a b => [wV d 1, rS a, rX64 b]
  | .ratom d a b => [mV d 2, rS a, rX64 b]
  | .satomAdd d a => [mS d, rS a]
  | .satomSwap d a => [mS d, rS a]
  | .satomCas d a b => [mS d, rS a, rS b]
  | .satomMin d a => [mS d, rS a]
  | .satomMax d a => [mS d, rS a]
  | .satomOr d a => [mS d, rS a]
  | .satomAnd d a => [mS d, rS a]
  | .vadd d a b => [wV d 1, rV a 1, rX b]
  | .vsub d a b => [wV d 1, rV a 1, rX b]
  | .vmul d a b => [wV d 1, rV a 1, rX b]
  | .vmulh d a b => [wV d 1, rV a 1, rX b]
  | .vmulhu d a b => [wV d 1, rV a 1, rX b]
  | .vmad d a b => [mV d 1, rV a 1, rX b]
  | .vand d a b => [wV d 1, rV a 1, rX b]
  | .vor d a b => [wV d 1, rV a 1, rX b]
  | .vxor d a b => [wV d 1, rV a 1, rX b]
  | .vandn d a b => [wV d 1, rV a 1, rX b]
  | .vshl d a b => [wV d 1, rV a 1, rX b]
  | .vshr d a b => [wV d 1, rV a 1, rX b]
  | .vsra d a b => [wV d 1, rV a 1, rX b]
  | .vmin d a b => [wV d 1, rV a 1, rX b]
  | .vminu d a b => [wV d 1, rV a 1, rX b]
  | .vmax d a b => [wV d 1, rV a 1, rX b]
  | .vmaxu d a b => [wV d 1, rV a 1, rX b]
  | .vabs d a => [wV d 1, rV a 1]
  | .vneg d a => [wV d 1, rV a 1]
  | .vclz d a => [wV d 1, rV a 1]
  | .vpopc d a => [wV d 1, rV a 1]
  | .vbrev d a => [wV d 1, rV a 1]
  | .vbfe d a b => [wV d 1, rV a 1, rX b]
  | .vbfeu d a b => [wV d 1, rV a 1, rX b]
  | .vbfi d a b => [mV d 1, rV a 1, rX b]
  | .vadd64 d a b => [wV d 2, rV a 2, rX64 b]
  | .vsub64 d a b => [wV d 2, rV a 2, rX64 b]
  | .vmul64 d a b => [wV d 2, rV a 2, rX64 b]
  | .vshl64 d a b => [wV d 2, rV a 2, rX64 b]
  | .vshr64 d a b => [wV d 2, rV a 2, rX64 b]
  | .vsra64 d a b => [wV d 2, rV a 2, rX64 b]
  | .vdp4 d a b => [mV d 1, rV a 1, rX b]
  | .vdp4u d a b => [mV d 1, rV a 1, rX b]
  | .vmov d a => [wV d 1, rX a]
  | .sigchk _ => []
  | .vmovi d _ => [wV d 1]
  | .vfadd d a b => [wV d 1, rV a 1, rX b]
  | .vfsub d a b => [wV d 1, rV a 1, rX b]
  | .vfmul d a b => [wV d 1, rV a 1, rX b]
  | .vfma d a b => [mV d 1, rV a 1, rX b]
  | .vfms d a b => [mV d 1, rV a 1, rX b]
  | .vfnma d a b => [mV d 1, rV a 1, rX b]
  | .vfmin d a b => [wV d 1, rV a 1, rX b]
  | .vfmax d a b => [wV d 1, rV a 1, rX b]
  | .vfabs d a => [wV d 1, rV a 1]
  | .vfneg d a => [wV d 1, rV a 1]
  | .vfcpsgn d a b => [wV d 1, rV a 1, rX b]
  | .vfscale d a b => [wV d 1, rV a 1, rX b]
  | .vfrndn d a => [wV d 1, rV a 1]
  | .vfrndz d a => [wV d 1, rV a 1]
  | .vfrndu d a => [wV d 1, rV a 1]
  | .vfrndd d a => [wV d 1, rV a 1]
  | .vfdiv d a b => [wV d 1, rV a 1, rX b]
  | .vfsqrt d a => [wV d 1, rV a 1]
  | .vfrcp d a => [wV d 1, rV a 1]
  | .vfrsq d a => [wV d 1, rV a 1]
  | .vdadd d a b => [wV d 2, rV a 2, rX64 b]
  | .vdsub d a b => [wV d 2, rV a 2, rX64 b]
  | .vdmul d a b => [wV d 2, rV a 2, rX64 b]
  | .vdfma d a b => [mV d 2, rV a 2, rX64 b]
  | .vdfms d a b => [mV d 2, rV a 2, rX64 b]
  | .vdfnma d a b => [mV d 2, rV a 2, rX64 b]
  | .vdmin d a b => [wV d 2, rV a 2, rX64 b]
  | .vdmax d a b => [wV d 2, rV a 2, rX64 b]
  | .vdabs d a => [wV d 2, rV a 2]
  | .vdneg d a => [wV d 2, rV a 2]
  | .vdscale d a b => [wV d 2, rV a 2, rX64 b]
  | .vdrndn d a => [wV d 2, rV a 2]
  | .vdrndz d a => [wV d 2, rV a 2]
  | .vddiv d a b => [wV d 2, rV a 2, rX64 b]
  | .vdsqrt d a => [wV d 2, rV a 2]
  | .vdrcp d a => [wV d 2, rV a 2]
  | .vdrsq d a => [wV d 2, rV a 2]
  | .vhadd _ d a b => [wV d 1, rV a 1, rX b]
  | .vhsub _ d a b => [wV d 1, rV a 1, rX b]
  | .vhmul _ d a b => [wV d 1, rV a 1, rX b]
  | .vhfma _ d a b => [mV d 1, rV a 1, rX b]
  | .vhmin _ d a b => [wV d 1, rV a 1, rX b]
  | .vhmax _ d a b => [wV d 1, rV a 1, rX b]
  | .vhdot2 _ d a b => [mV d 1, rV a 1, rX b]
  | .vcvtF64F32 d a => [wV d 2, rV a 1]
  | .vcvtF32F64 d a => [wV d 1, rV a 2]
  | .vcvtBf16F32 d a b => [wV d 1, rV a 1, rX b]
  | .vcvtF32Bf16 d a => [wV d 1, rV a 1]
  | .vcvtF16F32 d a b => [wV d 1, rV a 1, rX b]
  | .vcvtF32F16 d a => [wV d 1, rV a 1]
  | .vcvtE4m3F32 d a b => [wV d 1, rV a 1, rX b]
  | .vcvtE5m2F32 d a b => [wV d 1, rV a 1, rX b]
  | .vcvtF32E4m3 d a => [wV d 1, rV a 1]
  | .vcvtF32E5m2 d a => [wV d 1, rV a 1]
  | .vcvtS32F32 d a => [wV d 1, rV a 1]
  | .vcvtU32F32 d a => [wV d 1, rV a 1]
  | .vcvtF32S32 d a => [wV d 1, rV a 1]
  | .vcvtF32U32 d a => [wV d 1, rV a 1]
  | .vcvtS64F64 d a => [wV d 2, rV a 2]
  | .vcvtF64S64 d a => [wV d 2, rV a 2]
  | .vcvtS32F64 d a => [wV d 1, rV a 2]
  | .vcvtF64S32 d a => [wV d 2, rV a 1]
  | .vfclass d a => [wV d 1, rV a 1]
  | .vdclass d a => [wV d 1, rV a 2]
  | .vexp2 d a => [wV d 1, rV a 1]
  | .vlog2 d a => [wV d 1, rV a 1]
  | .vsin d a => [wV d 1, rV a 1]
  | .vcos d a => [wV d 1, rV a 1]
  | .teval d a => [wV d 1, rV a 1]
  | .tld a b => [rV a 1, rS b]
  | .vicmpEq d a b => [wP d, rV a 1, rX b]
  | .vicmpNe d a b => [wP d, rV a 1, rX b]
  | .vicmpLt d a b => [wP d, rV a 1, rX b]
  | .vicmpLe d a b => [wP d, rV a 1, rX b]
  | .vicmpLtu d a b => [wP d, rV a 1, rX b]
  | .vicmpLeu d a b => [wP d, rV a 1, rX b]
  | .vicmp64Eq d a b => [wP d, rV a 2, rX64 b]
  | .vicmp64Lt d a b => [wP d, rV a 2, rX64 b]
  | .vicmp64Ltu d a b => [wP d, rV a 2, rX64 b]
  | .vfcmpEq d a b => [wP d, rV a 1, rX b]
  | .vfcmpNe d a b => [wP d, rV a 1, rX b]
  | .vfcmpLt d a b => [wP d, rV a 1, rX b]
  | .vfcmpLe d a b => [wP d, rV a 1, rX b]
  | .vfcmpUn d a b => [wP d, rV a 1, rX b]
  | .vdcmpEq d a b => [wP d, rV a 2, rX64 b]
  | .vdcmpNe d a b => [wP d, rV a 2, rX64 b]
  | .vdcmpLt d a b => [wP d, rV a 2, rX64 b]
  | .vdcmpLe d a b => [wP d, rV a 2, rX64 b]
  | .vdcmpUn d a b => [wP d, rV a 2, rX64 b]
  | .pand d a b => [wP d, rP a, rP b]
  | .por d a b => [wP d, rP a, rP b]
  | .pxor d a b => [wP d, rP a, rP b]
  | .pandn d a b => [wP d, rP a, rP b]
  | .pnot d a => [wP d, rP a]
  | .pset d a => [wP d, rX a]
  | .psave d a => [wV d 1, rP a]
  | .prest d a => [wP d, rV a 1]
  | .ballot d a => [wSn d 3, rP a]
  | .mandp a => [rP a]
  | .mandnp a => [rP a]
  | .msetp a => [rP a]
  | .pcnt d a => [wS d, rP a]
  | .vperm d a b => [wV d 1, rV a 1, rX b]
  | .vshflx d a b => [wV d 1, rV a 1, rX b]
  | .vshflu d a b => [wV d 1, rV a 1, rX b]
  | .vshfld d a b => [wV d 1, rV a 1, rX b]
  | .vbcast d a b => [wV d 1, rV a 1, rS b]
  | .vredAdd d a => [wV d 1, rV a 1]
  | .vredMin d a => [wV d 1, rV a 1]
  | .vredMax d a => [wV d 1, rV a 1]
  | .vredAnd d a => [wV d 1, rV a 1]
  | .vredOr d a => [wV d 1, rV a 1]
  | .vredXor d a => [wV d 1, rV a 1]
  | .vfredAdd d a => [wV d 1, rV a 1]
  | .vscanAdd d a => [wV d 1, rV a 1]
  | .vlane d => [wV d 1]
  | .cpy c p a b => [rS c, rP p, rRun5 a, rRun5 b]
  | .swinit a b => [rS a, rS b]
  | .bara d a _ => [wS d, rS a]
  | .bard d a => [wS d, rS a]
  | .wmrd d _ => [wSn d 4]
  | .wmclr _ => []
  | .wmabort _ => []
  | .mfmt a => [rS a]
  | .mma _ _ _ => []
  | .mmaL _ _ _ => []
  | .mzero _ => []
  | .acrd d _ wide b => [wV d (if wide then 2 else 1), rSn b 2]
  | .acwr d _ wide b => [rV d (if wide then 2 else 1), rSn b 2]
  | .tbw d _ b => [rV d 1, rS b]
  | .tbr d _ b => [wV d 1, rS b]
  | .mpert a b => [rS a, rS b]
  | .msync => []
  | .seqgo a => [rS a]
  | .vsel p d a b => [rP p, wV d 1, rV a 1, rX b]
  | .vpmov p d b => [rP p, wV d 1, rX b]
  | .uisend a b => [rS a, rS b]
  | .uisendw a b => [rS a, rS b]
  | .uiret => []
  | .uiack d b => [wS d, rS b]
  | .uipoll d => [wS d]
  | .trapret => []
  | .srdp d _ => [wS d]
  | .swrp _ d => [rS d]
  | .lsel a => [rS a]
  | .lrdv d a => [wS d, rF a]
  | .lwrv d a => [rS d, wF a]
  | .lrdp d a => [wS d, rP a]
  | .lwrp d a => [rS d, wP a]
  | .tlbinv a b => [rS a, rS b]
  | .tlbsync => []
  | .freplay => []
  | .fdrop => []
  | .halt a => [rS a]
  | .ctxcmdLoad _
  | .ctxcmdPark _
  | .ctxcmdForget _
  | .evcmdEvict _
  | .evcmdEnd _
  | .fqcmdReplay _
  | .fqcmdDrop _
  | .pgcmdGo _
  | .pgcmdSweep _
  | .tlbicmdWrite _
  | .tlbicmdRead _
  | .cstateWriteAlive _
  | .cstateWriteFree _
  | .cstateWriteDead _
  | .lportLaunch _ _ _
  | .lportGraph _ _ _
  | .uiportStore _ _ _ _
  | .measExtend _ _
  | .raspop
  | .attcmdGo _
  | .attestationReportDone
  | .registerWrite _ _ _
  | .rds _
  | .rdx _
  | .upg _
  | .wrf _
  | .atf _
  | .ntr _
  | .prf _
  | .wbk _
  | .cancel _ _
  | .recallInv _
  | .recallDown _
  | .recallCopy _
  | .recallDwb _
  | .recallAnswer _
  | .homeAnswer _
  | .retry _
  | .retryResend _
  | .retryMigrating _
  | .migrationDone _
  | .rputDelivery _
  | .rputfDelivery _
  | .rgetDelivery _
  | .ratomDelivery _
  | .epochClose _ _ _ _
  | .epochCloseAck _
  | .remoteAck _ _
  | .remoteAnswer _
  | .uiArrival _
  | .uiSendAnswer _ _
  | .uiHandlerEntry _
  | .heartbeatSend
  | .heartbeat _
  | .heartbeatTimeout _
  | .suspectReport _ _ _
  | .monitorDeclare _
  | .deathDeclaration _ _
  | .recoveryRegionScan _
  | .linkCrcError _
  | .linkDown _
  | .invalidation _
  | .invalidationAck _
  | .pageWalkComplete _
  | .requestTimeout _
  | .storeBufferTimeout _ _
  | .storeBufferAnswer _ _ _
  | .l2WritePerform _
  | .pinExpiry _
  | .waitEvaluate _
  | .waitTimeout _
  | .baraWaitEnd _
  | .fenceComplete _
  | .sequencerGrant _
  | .launchAccept _
  | .afterConditionRead _
  | .dispatchPlace
  | .dispatchRetry
  | .activeSetSwap _
  | .clusterEvict _
  | .evictRetry _
  | .wakeEvaluate _
  | .gridComplete _
  | .gridCompletionActions _
  | .trapEntry _
  | .fqRetry _
  | .copyUnitLand _
  | .copyLineWritePerformed _ _
  | .copyLandingsComplete _
  | .copyStampPerformed _
  | .matrixOpComplete _
  | .migrationStart _
  | .migrationCopyPage _
  | .migrationFinish _
  | .migWindowBoundary
  | .eccRetry _
  | .scrubPass _
  | .powerAdjust
  | .hotLimit
  | .ageRecompute _ _ _
  | .infieldTestDrain _
  | .infieldTestStart _
  | .infieldTestEnd _
  | .infieldTestTimeout _
  | .reset _
  | .l2LoadAnswer _ _
  | .memberScratchpadAccess _
  | .ctxcmdComplete
  | .hotLimitClear
  | .leaseExpiry _ => []

/-- Step 5 of 07 R184: a V2 or V4 field with the wrong alignment. -/
def Use.aligned (u : Use) : Bool :=
  match u.o with
  | .v r n => r.val % n == 0
  | _ => true
/-- Step 6 of 07 R184: a run beyond s31 or v95. -/
def Use.inRun (u : Use) : Bool :=
  match u.o with
  | .s r n => r.val + n ≤ 32
  | .run5 (.v r) => r.val + 5 ≤ 96
  | .run5 (.s r) => r.val + 5 ≤ 32
  | _ => true
def Instr.aligned (i : Instr) : Bool := i.uses.all Use.aligned
def Instr.inRuns (i : Instr) : Bool := i.uses.all Use.inRun

/-- The Modes column of 09 R240. -/
def SpecialReg.inMode : SpecialReg → Mode → Bool
  | .laneid, m | .fpcr, m => m == .user
  | .live _, m | .winbase, m | .allot, m | .pinstat, m => m != .seq
  | .trapcode, m | .trappc, m | .trapaddr, m | .trapmask _, m => m == .sup
  | .uipend, m | .uimask, m | .uihg, m | .uivec, m | .uipc, m | .uisavm _, m | .uideny, m
  | .uicnt _, m | .uidata _, m | .uirule _, m => m == .user
  | _, _ => true
/-- The Access column of 09 R240, and of 13 R308 for the interrupt registers. -/
def SpecialReg.writable : SpecialReg → Bool
  | .ccr | .fpcr | .trappc | .trapmask _ => true
  | .uimask | .uihg | .uivec | .uipc | .uisavm _ | .uideny | .uicnt _ | .uidata _ | .uirule _ => true
  | _ => false
/-- The Access column of 15 R343. -/
def PrivReg.writable : PrivReg → Bool
  | .ncw _ | .trapnpc | .fqcmd => true
  | _ => false

/-- The index of 09 R240. -/
def SpecialReg.index : SpecialReg → Nat
  | .laneid => 0x000 | .groupid => 0x001 | .memberid => 0x002 | .clx => 0x003 | .cly => 0x004 | .clz => 0x005
  | .gridx => 0x006 | .gridy => 0x007 | .gridz => 0x008 | .teamshape => 0x009 | .live k => 0x00A + k.val
  | .coreid => 0x00D | .now => 0x010 | .lct => 0x011 | .ccr => 0x012 | .fpcr => 0x013 | .winbase => 0x014
  | .allot => 0x015 | .sig => 0x016 | .pinstat => 0x017 | .param => 0x020 | .lrec => 0x021 | .lhandle => 0x022
  | .cpyseq => 0x023 | .launchinfo => 0x024 | .trapcode => 0x030 | .trappc => 0x031 | .trapaddr => 0x032
  | .trapmask k => 0x033 + k.val | .uipend => 0x040 | .uimask => 0x041 | .uihg => 0x042 | .uivec => 0x043
  | .uipc => 0x044 | .uisavm k => 0x045 + k.val | .uideny => 0x048
  | .uicnt n => 0x100 + n.val | .uidata n => 0x140 + n.val | .uirule n => 0x180 + n.val
/-- The register at an index of 09 R240, or none. -/
def SpecialReg.ofIndex (i : Nat) : Option SpecialReg :=
  if h : 0x100 ≤ i ∧ i < 0x140 then some (.uicnt ⟨i - 0x100, by omega⟩)
  else if h : 0x140 ≤ i ∧ i < 0x180 then some (.uidata ⟨i - 0x140, by omega⟩)
  else if h : 0x180 ≤ i ∧ i < 0x1C0 then some (.uirule ⟨i - 0x180, by omega⟩)
  else if h : 0x00A ≤ i ∧ i < 0x00D then some (.live ⟨i - 0x00A, by omega⟩)
  else if h : 0x033 ≤ i ∧ i < 0x036 then some (.trapmask ⟨i - 0x033, by omega⟩)
  else if h : 0x045 ≤ i ∧ i < 0x048 then some (.uisavm ⟨i - 0x045, by omega⟩)
  else match i with
  | 0x000 => some .laneid | 0x001 => some .groupid | 0x002 => some .memberid | 0x003 => some .clx
  | 0x004 => some .cly | 0x005 => some .clz | 0x006 => some .gridx | 0x007 => some .gridy | 0x008 => some .gridz
  | 0x009 => some .teamshape | 0x00D => some .coreid | 0x010 => some .now | 0x011 => some .lct | 0x012 => some .ccr
  | 0x013 => some .fpcr | 0x014 => some .winbase | 0x015 => some .allot | 0x016 => some .sig | 0x017 => some .pinstat
  | 0x020 => some .param | 0x021 => some .lrec | 0x022 => some .lhandle | 0x023 => some .cpyseq
  | 0x024 => some .launchinfo | 0x030 => some .trapcode | 0x031 => some .trappc | 0x032 => some .trapaddr
  | 0x040 => some .uipend | 0x041 => some .uimask | 0x042 => some .uihg | 0x043 => some .uivec | 0x044 => some .uipc
  | 0x048 => some .uideny
  | _ => none
/-- The index of 15 R343. -/
def PrivReg.index : PrivReg → Nat
  | .ncw n => n.val | .trapnpc => 0x010 | .trapdisp => 0x011 | .ctxnum => 0x012 | .fltpend k => 0x013 + k.val
  | .fltinsn => 0x016 | .lselv => 0x017 | .fqcmd => 0x018
/-- The register at an index of 15 R343, or none. -/
def PrivReg.ofIndex (i : Nat) : Option PrivReg :=
  if h : i < 16 then some (.ncw ⟨i, h⟩)
  else if h : 0x013 ≤ i ∧ i < 0x016 then some (.fltpend ⟨i - 0x013, by omega⟩)
  else match i with
  | 0x010 => some .trapnpc | 0x011 => some .trapdisp | 0x012 => some .ctxnum | 0x016 => some .fltinsn
  | 0x017 => some .lselv | 0x018 => some .fqcmd
  | _ => none

/-- Why a word is no instruction here (07 R184): ILLEGAL_INSN with its detail, or PRIV_VIOLATION. -/
inductive Reject where
  | illegal (detail : Nat) | priv
deriving DecidableEq, Repr

/-- Steps 7 and 8 of 07 R184 for an instruction legal in the modes given (group in user mode, supervisor mode, stream):
one that is legal in supervisor mode alone is the PRIV major. -/
def modeReject (l : Bool × Bool × Bool) (m : Mode) : Option Reject :=
  let (g, p, q) := l
  let okMode := match m with | .user => g | .sup => p | .seq => q
  if okMode then none else if m == .user && p && !g && !q then some .priv else some (.illegal 4)
/-- A special register in a mode that its Modes column omits (09 R239). DEDUCED: SWR too takes this trap where the register is
writable in another mode only, and detail 0x00 where it is writable in none (log 44). -/
def SpecialReg.reject (r : SpecialReg) (m : Mode) : Option Reject :=
  if r.inMode m then none
  else if m == .user && r.inMode .sup && !r.inMode .seq then some .priv else some (.illegal 4)
/-- Legal everywhere; in a group in user mode; there and in a stream; there and in supervisor mode; in supervisor mode. -/
def anyMode : Bool × Bool × Bool := (true, true, true)
def userOnly : Bool × Bool × Bool := (true, false, false)
def userSeq : Bool × Bool × Bool := (true, false, true)
def userSup : Bool × Bool × Bool := (true, true, false)
def supOnly : Bool × Bool × Bool := (false, true, false)

/-- The modes in which an instruction is legal: group in user mode, supervisor mode, stream (07 R176, R182). -/
def Instr.modes : Instr → Bool × Bool × Bool
  | .exit
  | .yield
  | .wait _ _ _ _
  | .cpy _ _ _ _
  | .swinit _ _
  | .bara _ _ _
  | .bard _ _
  | .wmrd _ _
  | .wmclr _
  | .wmabort _
  | .mfmt _
  | .mma _ _ _
  | .mmaL _ _ _
  | .mzero _
  | .mpert _ _
  | .msync
  | .uisend _ _ => userSeq
  | .lexit
  | .sys
  | .win _
  | .waitc
  | .launch _ _
  | .pinon
  | .pinoff
  | .vldb _ _ _
  | .vldh _ _ _
  | .vldw _ _ _
  | .vldd _ _ _
  | .vldq _ _ _
  | .vstb _ _ _
  | .vsth _ _ _
  | .vstw _ _ _
  | .vstd _ _ _
  | .vstq _ _ _
  | .atomAddW _ _
  | .atomAddD _ _
  | .atomMinW _ _
  | .atomMaxW _ _
  | .atomMinuW _ _
  | .atomMaxuW _ _
  | .atomMinD _ _
  | .atomMaxD _ _
  | .atomAndW _ _
  | .atomOrW _ _
  | .atomXorW _ _
  | .atomAndD _ _
  | .atomOrD _ _
  | .atomXorD _ _
  | .atomSwapW _ _
  | .atomSwapD _ _
  | .atomCasW _ _
  | .atomCasD _ _
  | .atomFaddF32 _ _
  | .atomFaddF64 _ _
  | .atomFminF32 _ _
  | .atomFmaxF32 _ _
  | .spldb _ _ _
  | .spldh _ _ _
  | .spldw _ _ _
  | .spldd _ _ _
  | .spldq _ _ _
  | .spstb _ _ _
  | .spsth _ _ _
  | .spstw _ _ _
  | .spstd _ _ _
  | .spstq _ _ _
  | .spatomAdd _ _ _
  | .spatomMin _ _ _
  | .spatomMax _ _ _
  | .spatomSwap _ _ _
  | .spatomCas _ _ _
  | .spatomFadd _ _ _
  | .rput _ _ _
  | .rputf _ _ _
  | .rget _ _ _
  | .ratom _ _ _
  | .vadd _ _ _
  | .vsub _ _ _
  | .vmul _ _ _
  | .vmulh _ _ _
  | .vmulhu _ _ _
  | .vmad _ _ _
  | .vand _ _ _
  | .vor _ _ _
  | .vxor _ _ _
  | .vandn _ _ _
  | .vshl _ _ _
  | .vshr _ _ _
  | .vsra _ _ _
  | .vmin _ _ _
  | .vminu _ _ _
  | .vmax _ _ _
  | .vmaxu _ _ _
  | .vabs _ _
  | .vneg _ _
  | .vclz _ _
  | .vpopc _ _
  | .vbrev _ _
  | .vbfe _ _ _
  | .vbfeu _ _ _
  | .vbfi _ _ _
  | .vadd64 _ _ _
  | .vsub64 _ _ _
  | .vmul64 _ _ _
  | .vshl64 _ _ _
  | .vshr64 _ _ _
  | .vsra64 _ _ _
  | .vdp4 _ _ _
  | .vdp4u _ _ _
  | .vmov _ _
  | .vmovi _ _
  | .vfadd _ _ _
  | .vfsub _ _ _
  | .vfmul _ _ _
  | .vfma _ _ _
  | .vfms _ _ _
  | .vfnma _ _ _
  | .vfmin _ _ _
  | .vfmax _ _ _
  | .vfabs _ _
  | .vfneg _ _
  | .vfcpsgn _ _ _
  | .vfscale _ _ _
  | .vfrndn _ _
  | .vfrndz _ _
  | .vfrndu _ _
  | .vfrndd _ _
  | .vfdiv _ _ _
  | .vfsqrt _ _
  | .vfrcp _ _
  | .vfrsq _ _
  | .vdadd _ _ _
  | .vdsub _ _ _
  | .vdmul _ _ _
  | .vdfma _ _ _
  | .vdfms _ _ _
  | .vdfnma _ _ _
  | .vdmin _ _ _
  | .vdmax _ _ _
  | .vdabs _ _
  | .vdneg _ _
  | .vdscale _ _ _
  | .vdrndn _ _
  | .vdrndz _ _
  | .vddiv _ _ _
  | .vdsqrt _ _
  | .vdrcp _ _
  | .vdrsq _ _
  | .vhadd _ _ _ _
  | .vhsub _ _ _ _
  | .vhmul _ _ _ _
  | .vhfma _ _ _ _
  | .vhmin _ _ _ _
  | .vhmax _ _ _ _
  | .vhdot2 _ _ _ _
  | .vcvtF64F32 _ _
  | .vcvtF32F64 _ _
  | .vcvtBf16F32 _ _ _
  | .vcvtF32Bf16 _ _
  | .vcvtF16F32 _ _ _
  | .vcvtF32F16 _ _
  | .vcvtE4m3F32 _ _ _
  | .vcvtE5m2F32 _ _ _
  | .vcvtF32E4m3 _ _
  | .vcvtF32E5m2 _ _
  | .vcvtS32F32 _ _
  | .vcvtU32F32 _ _
  | .vcvtF32S32 _ _
  | .vcvtF32U32 _ _
  | .vcvtS64F64 _ _
  | .vcvtF64S64 _ _
  | .vcvtS32F64 _ _
  | .vcvtF64S32 _ _
  | .vfclass _ _
  | .vdclass _ _
  | .vexp2 _ _
  | .vlog2 _ _
  | .vsin _ _
  | .vcos _ _
  | .teval _ _
  | .tld _ _
  | .vicmpEq _ _ _
  | .vicmpNe _ _ _
  | .vicmpLt _ _ _
  | .vicmpLe _ _ _
  | .vicmpLtu _ _ _
  | .vicmpLeu _ _ _
  | .vicmp64Eq _ _ _
  | .vicmp64Lt _ _ _
  | .vicmp64Ltu _ _ _
  | .vfcmpEq _ _ _
  | .vfcmpNe _ _ _
  | .vfcmpLt _ _ _
  | .vfcmpLe _ _ _
  | .vfcmpUn _ _ _
  | .vdcmpEq _ _ _
  | .vdcmpNe _ _ _
  | .vdcmpLt _ _ _
  | .vdcmpLe _ _ _
  | .vdcmpUn _ _ _
  | .pand _ _ _
  | .por _ _ _
  | .pxor _ _ _
  | .pandn _ _ _
  | .pnot _ _
  | .pset _ _
  | .psave _ _
  | .prest _ _
  | .ballot _ _
  | .mandp _
  | .mandnp _
  | .msetp _
  | .pcnt _ _
  | .vperm _ _ _
  | .vshflx _ _ _
  | .vshflu _ _ _
  | .vshfld _ _ _
  | .vbcast _ _ _
  | .vredAdd _ _
  | .vredMin _ _
  | .vredMax _ _
  | .vredAnd _ _
  | .vredOr _ _
  | .vredXor _ _
  | .vfredAdd _ _
  | .vscanAdd _ _
  | .vlane _
  | .acrd _ _ _ _
  | .acwr _ _ _ _
  | .tbw _ _ _
  | .tbr _ _ _
  | .seqgo _
  | .vsel _ _ _ _
  | .vpmov _ _ _
  | .uisendw _ _
  | .uiret
  | .uiack _ _
  | .uipoll _ => userOnly
  | .brk
  | .cflush _ _
  | .cinv _ _
  | .pref _ _
  | .icinv _ _ => userSup
  | .trapret
  | .srdp _ _
  | .swrp _ _
  | .lsel _
  | .lrdv _ _
  | .lwrv _ _
  | .lrdp _ _
  | .lwrp _ _
  | .tlbinv _ _
  | .tlbsync
  | .freplay
  | .fdrop
  | .halt _ => supOnly
  | _ => anyMode

/-- Steps 7 and 8 of 07 R184, with the special registers' modes of 09 R239 and the vector SRD of 07 R183. -/
def Instr.illegalIn (i : Instr) (m : Mode) : Option Reject :=
  match modeReject i.modes m with
  | some r => some r
  | none =>
    match i with
    | .srd (.v _) r => if m == .sup then some (.illegal 4) else r.reject m
    | .srd (.s _) r => r.reject m
    | .swr r _ => r.reject m
    | .cpy _ p _ _ => if m == .seq && p.val != 0 then some (.illegal 4) else none
    | _ => none

/-- Bits [lo + len - 1 : lo] of a word. -/
def fieldOf (w : Word) (lo len : Nat) : Nat := w.toNat / 2 ^ lo % 2 ^ len

/-- Class V; no vector register exists in a stream (07 R181). -/
def clsV (m : Mode) (f : Nat) : Option VReg :=
  if h : f < 96 then (if m == .seq then none else some ⟨f, h⟩) else none
/-- Class S. -/
def clsS (f : Nat) : Option SReg := if h : 96 ≤ f ∧ f < 128 then some ⟨f - 96, by omega⟩ else none
/-- Class X. -/
def clsX (m : Mode) (f : Nat) : Option XOpnd :=
  if f < 96 then (clsV m f).map .v else (clsS f).map .s
/-- Class P in a 7-bit field whose high two bits are zero; none in a stream (07 R181). -/
def clsP (m : Mode) (f : Nat) : Option PReg :=
  if h : f < 32 then (if m == .seq then none else some ⟨f, h⟩) else none
/-- An immediate of n values. -/
def clsN (n : Nat) (f : Nat) : Option (Fin n) := if h : f < n then some ⟨f, h⟩ else none
/-- The address fields of VLD, VST and VATOM (07 R178). -/
def clsAddr (m : Mode) (pair : Bool) (a b : Nat) : Option VAddr :=
  if pair then (clsV m a).map .pair
  else match clsS a, clsX m b with
    | some a, some b => some (.base a b)
    | _, _ => none
/-- The b field of CFLUSH, CINV, PREF and ICINV (11 R281). -/
def clsOptS (f : Nat) : Option (Option SReg) := if f == 0 then some none else (clsS f).map some

def mk2 {α β : Type} (x : Option α) (y : Option β) (k : α → β → Instr) : Option Instr :=
  match x, y with
  | some x, some y => some (k x y)
  | _, _ => none
def mk3 {α β γ : Type} (x : Option α) (y : Option β) (z : Option γ) (k : α → β → γ → Instr) : Option Instr :=
  match x, y, z with
  | some x, some y, some z => some (k x y z)
  | _, _, _ => none

/-- Steps 2 and 4 to 8 of 07 R184 in order, for a word whose function is known: `rsv` says its reserved bits are zero,
`i` is the instruction when every field is in its class. -/
def finish (m : Mode) (rsv : Bool) (i : Option Instr) : Except Reject Instr :=
  if !rsv then .error (.illegal 1)
  else match i with
    | none => .error (.illegal 2)
    | some i =>
      if !i.aligned then .error (.illegal 3)
      else if !i.inRuns then .error (.illegal 6)
      else match i.illegalIn m with
        | some r => .error r
        | none => .ok i

def Cond.code : Cond → Nat
  | .al => 0 | .eq => 1 | .ne => 2 | .lt => 3 | .ge => 4 | .le => 5 | .gt => 6 | .ltu => 7 | .leu => 8 | .geu => 10
  | .gtu => 11 | .mz => 12 | .mnz => 13 | .mf => 14 | .mnf => 15 | .tmo => 16 | .ntmo => 17 | .nl => 18 | .nnl => 19
/-- The condition of a cond field (07 R186); 9 and 20 to 31 name none. -/
def Cond.ofCode : Nat → Option Cond
  | 0 => some .al | 1 => some .eq | 2 => some .ne | 3 => some .lt | 4 => some .ge | 5 => some .le | 6 => some .gt
  | 7 => some .ltu | 8 => some .leu | 10 => some .geu | 11 => some .gtu | 12 => some .mz | 13 => some .mnz
  | 14 => some .mf | 15 => some .mnf | 16 => some .tmo | 17 => some .ntmo | 18 => some .nl | 19 => some .nnl
  | _ => none
def Hint.code : Hint → Nat
  | .normal => 0 | .s => 1 | .nl => 2

def unknown : Except Reject Instr := .error (.illegal 0)

/-- Major 0x00 (07 R177). -/
def decodeCtrl (m : Mode) (fn d a b : Nat) : Except Reject Instr :=
  match fn with
  | 0 => finish m (d == 0 && a == 0 && b == 0) (some .nop)
  | 1 => finish m (d == 0 && a == 0 && b == 0) (some .exit)
  | 2 => finish m (d == 0 && a == 0 && b == 0) (some .lexit)
  | 3 => finish m (d == 0 && a == 0 && b == 0) (some .yield)
  | 4 => finish m (d == 0 && a == 0 && b == 0) (some .sys)
  | 5 => finish m (d == 0 && a == 0 && b == 0) (some .brk)
  | 6 => finish m (d == 0 && a == 0 && b == 0) (some .sigrst)
  | 7 => finish m (d == 0 && a == 0 && b == 0) (some .fetchb)
  | 8 => if d < 16 then finish m (a == 0 && b == 0) ((clsN 16 d).map .win) else unknown
  | 9 => finish m (b < 8) (mk2 (clsS d) (clsS a) fun d a => .wait d a ⟨b / 2 % 4, Nat.mod_lt _ (by decide)⟩ (b % 2 == 1))
  | 10 => finish m (d == 0 && a == 0 && b == 0) (some .waitc)
  | 11 => finish m (b == 0) (mk2 (clsS d) (clsS a) .launch)
  | 12 => match SpecialReg.ofIndex (a * 128 + b) with
    | none => unknown
    | some r => finish m true ((clsX m d).map fun d => .srd d r)
  | 13 => match SpecialReg.ofIndex (a * 128 + b) with
    | none => unknown
    | some r => if r.writable then finish m true ((clsS d).map fun d => .swr r d) else unknown
  | 14 => finish m (d == 0 && b == 0) ((clsS a).map .jr)
  | 15 => finish m (b == 0) (mk2 (clsS d) (clsS a) .jlr)
  | 16 => finish m (d == 0 && a == 0 && b == 0) (some .pinon)
  | 17 => finish m (d == 0 && a == 0 && b == 0) (some .pinoff)
  | _ => unknown

/-- Major 0x01 (07 R177). -/
def decodeSalu (m : Mode) (fn d a b : Nat) : Except Reject Instr :=
  match fn with
  | 0 => finish m (true) (mk3 (clsS d) (clsS a) (clsS b) .sadd)
  | 1 => finish m (true) (mk3 (clsS d) (clsS a) (clsS b) .ssub)
  | 2 => finish m (true) (mk3 (clsS d) (clsS a) (clsS b) .smul)
  | 3 => finish m (true) (mk3 (clsS d) (clsS a) (clsS b) .smulh)
  | 4 => finish m (true) (mk3 (clsS d) (clsS a) (clsS b) .smulhu)
  | 5 => finish m (true) (mk3 (clsS d) (clsS a) (clsS b) .sdiv)
  | 6 => finish m (true) (mk3 (clsS d) (clsS a) (clsS b) .sdivu)
  | 7 => finish m (true) (mk3 (clsS d) (clsS a) (clsS b) .srem)
  | 8 => finish m (true) (mk3 (clsS d) (clsS a) (clsS b) .sremu)
  | 9 => finish m (true) (mk3 (clsS d) (clsS a) (clsS b) .sand)
  | 10 => finish m (true) (mk3 (clsS d) (clsS a) (clsS b) .sor)
  | 11 => finish m (true) (mk3 (clsS d) (clsS a) (clsS b) .sxor)
  | 12 => finish m (true) (mk3 (clsS d) (clsS a) (clsS b) .sandn)
  | 13 => finish m (true) (mk3 (clsS d) (clsS a) (clsS b) .sshl)
  | 14 => finish m (true) (mk3 (clsS d) (clsS a) (clsS b) .sshr)
  | 15 => finish m (true) (mk3 (clsS d) (clsS a) (clsS b) .ssra)
  | 16 => finish m (true) (mk3 (clsS d) (clsS a) (clsS b) .smin)
  | 17 => finish m (true) (mk3 (clsS d) (clsS a) (clsS b) .smax)
  | 18 => finish m (true) (mk3 (clsS d) (clsS a) (clsS b) .sminu)
  | 19 => finish m (true) (mk3 (clsS d) (clsS a) (clsS b) .smaxu)
  | 20 => finish m (b == 0) (mk2 (clsS d) (clsS a) .sclz)
  | 21 => finish m (b == 0) (mk2 (clsS d) (clsS a) .sctz)
  | 22 => finish m (b == 0) (mk2 (clsS d) (clsS a) .spopc)
  | 23 => finish m (b == 0) (mk2 (clsS d) (clsS a) .sbrev)
  | 24 => finish m (true) (mk3 (clsS d) (clsS a) (clsS b) .sbfe)
  | 25 => finish m (true) (mk3 (clsS d) (clsS a) (clsS b) .sbfeu)
  | 26 => finish m (true) (mk3 (clsS d) (clsS a) (clsS b) .sbfi)
  | 27 => finish m (d == 0) (mk2 (clsS a) (clsS b) .scmp)
  | 28 => finish m (true) (mk3 (clsS d) (clsS a) (clsS b) .ssel)
  | _ => unknown

/-- Major 0x0F (07 R177). -/
def decodeVatom (m : Mode) (fn d a b : Nat) : Except Reject Instr :=
  match fn with
  | 0 => finish m (96 ≤ a || b == 0) (mk2 (clsV m d) (clsAddr m (a < 96) a b) .atomAddW)
  | 1 => finish m (96 ≤ a || b == 0) (mk2 (clsV m d) (clsAddr m (a < 96) a b) .atomAddD)
  | 2 => finish m (96 ≤ a || b == 0) (mk2 (clsV m d) (clsAddr m (a < 96) a b) .atomMinW)
  | 3 => finish m (96 ≤ a || b == 0) (mk2 (clsV m d) (clsAddr m (a < 96) a b) .atomMaxW)
  | 4 => finish m (96 ≤ a || b == 0) (mk2 (clsV m d) (clsAddr m (a < 96) a b) .atomMinuW)
  | 5 => finish m (96 ≤ a || b == 0) (mk2 (clsV m d) (clsAddr m (a < 96) a b) .atomMaxuW)
  | 6 => finish m (96 ≤ a || b == 0) (mk2 (clsV m d) (clsAddr m (a < 96) a b) .atomMinD)
  | 7 => finish m (96 ≤ a || b == 0) (mk2 (clsV m d) (clsAddr m (a < 96) a b) .atomMaxD)
  | 8 => finish m (96 ≤ a || b == 0) (mk2 (clsV m d) (clsAddr m (a < 96) a b) .atomAndW)
  | 9 => finish m (96 ≤ a || b == 0) (mk2 (clsV m d) (clsAddr m (a < 96) a b) .atomOrW)
  | 10 => finish m (96 ≤ a || b == 0) (mk2 (clsV m d) (clsAddr m (a < 96) a b) .atomXorW)
  | 11 => finish m (96 ≤ a || b == 0) (mk2 (clsV m d) (clsAddr m (a < 96) a b) .atomAndD)
  | 12 => finish m (96 ≤ a || b == 0) (mk2 (clsV m d) (clsAddr m (a < 96) a b) .atomOrD)
  | 13 => finish m (96 ≤ a || b == 0) (mk2 (clsV m d) (clsAddr m (a < 96) a b) .atomXorD)
  | 14 => finish m (96 ≤ a || b == 0) (mk2 (clsV m d) (clsAddr m (a < 96) a b) .atomSwapW)
  | 15 => finish m (96 ≤ a || b == 0) (mk2 (clsV m d) (clsAddr m (a < 96) a b) .atomSwapD)
  | 16 => finish m (96 ≤ a || b == 0) (mk2 (clsV m d) (clsAddr m (a < 96) a b) .atomCasW)
  | 17 => finish m (96 ≤ a || b == 0) (mk2 (clsV m d) (clsAddr m (a < 96) a b) .atomCasD)
  | 18 => finish m (96 ≤ a || b == 0) (mk2 (clsV m d) (clsAddr m (a < 96) a b) .atomFaddF32)
  | 19 => finish m (96 ≤ a || b == 0) (mk2 (clsV m d) (clsAddr m (a < 96) a b) .atomFaddF64)
  | 20 => finish m (96 ≤ a || b == 0) (mk2 (clsV m d) (clsAddr m (a < 96) a b) .atomFminF32)
  | 21 => finish m (96 ≤ a || b == 0) (mk2 (clsV m d) (clsAddr m (a < 96) a b) .atomFmaxF32)
  | _ => unknown

/-- Major 0x10 (07 R177). -/
def decodeSpm (m : Mode) (fn d a b : Nat) : Except Reject Instr :=
  match fn with
  | 0 => finish m (true) (mk3 (clsV m d) (clsS a) (clsX m b) .spldb)
  | 1 => finish m (true) (mk3 (clsV m d) (clsS a) (clsX m b) .spldh)
  | 2 => finish m (true) (mk3 (clsV m d) (clsS a) (clsX m b) .spldw)
  | 3 => finish m (true) (mk3 (clsV m d) (clsS a) (clsX m b) .spldd)
  | 4 => finish m (true) (mk3 (clsV m d) (clsS a) (clsX m b) .spldq)
  | 5 => finish m (true) (mk3 (clsV m d) (clsS a) (clsX m b) .spstb)
  | 6 => finish m (true) (mk3 (clsV m d) (clsS a) (clsX m b) .spsth)
  | 7 => finish m (true) (mk3 (clsV m d) (clsS a) (clsX m b) .spstw)
  | 8 => finish m (true) (mk3 (clsV m d) (clsS a) (clsX m b) .spstd)
  | 9 => finish m (true) (mk3 (clsV m d) (clsS a) (clsX m b) .spstq)
  | 10 => finish m (true) (mk3 (clsV m d) (clsS a) (clsX m b) .spatomAdd)
  | 11 => finish m (true) (mk3 (clsV m d) (clsS a) (clsX m b) .spatomMin)
  | 12 => finish m (true) (mk3 (clsV m d) (clsS a) (clsX m b) .spatomMax)
  | 13 => finish m (true) (mk3 (clsV m d) (clsS a) (clsX m b) .spatomSwap)
  | 14 => finish m (true) (mk3 (clsV m d) (clsS a) (clsX m b) .spatomCas)
  | 15 => finish m (true) (mk3 (clsV m d) (clsS a) (clsX m b) .spatomFadd)
  | _ => unknown

/-- Major 0x11 (07 R177). -/
def decodeMemctl (m : Mode) (fn d a b : Nat) : Except Reject Instr :=
  match fn with
  | 0 => finish m (d == 0 && a == 0 && b == 0) (some .fenceCore)
  | 1 => finish m (d == 0 && a == 0 && b == 0) (some .fencePkg)
  | 2 => finish m (d == 0 && a == 0 && b == 0) (some .fenceSpan)
  | 3 => finish m (d == 0) (mk2 (clsS a) (clsOptS b) .cflush)
  | 4 => finish m (d == 0) (mk2 (clsS a) (clsOptS b) .cinv)
  | 5 => finish m (d == 0) (mk2 (clsS a) (clsOptS b) .pref)
  | 6 => finish m (d == 0) (mk2 (clsS a) (clsOptS b) .icinv)
  | 7 => finish m (true) (mk3 (clsV m d) (clsS a) (clsX m b) .rput)
  | 8 => finish m (true) (mk3 (clsV m d) (clsS a) (clsX m b) .rputf)
  | 9 => finish m (true) (mk3 (clsV m d) (clsS a) (clsX m b) .rget)
  | 10 => finish m (true) (mk3 (clsV m d) (clsS a) (clsX m b) .ratom)
  | 11 => finish m (b == 0) (mk2 (clsS d) (clsS a) .satomAdd)
  | 12 => finish m (b == 0) (mk2 (clsS d) (clsS a) .satomSwap)
  | 13 => finish m (true) (mk3 (clsS d) (clsS a) (clsS b) .satomCas)
  | 14 => finish m (b == 0) (mk2 (clsS d) (clsS a) .satomMin)
  | 15 => finish m (b == 0) (mk2 (clsS d) (clsS a) .satomMax)
  | 16 => finish m (b == 0) (mk2 (clsS d) (clsS a) .satomOr)
  | 17 => finish m (b == 0) (mk2 (clsS d) (clsS a) .satomAnd)
  | _ => unknown

/-- Major 0x12 (07 R177). -/
def decodeVialu (m : Mode) (fn d a b : Nat) : Except Reject Instr :=
  match fn with
  | 0 => finish m (true) (mk3 (clsV m d) (clsV m a) (clsX m b) .vadd)
  | 1 => finish m (true) (mk3 (clsV m d) (clsV m a) (clsX m b) .vsub)
  | 2 => finish m (true) (mk3 (clsV m d) (clsV m a) (clsX m b) .vmul)
  | 3 => finish m (true) (mk3 (clsV m d) (clsV m a) (clsX m b) .vmulh)
  | 4 => finish m (true) (mk3 (clsV m d) (clsV m a) (clsX m b) .vmulhu)
  | 5 => finish m (true) (mk3 (clsV m d) (clsV m a) (clsX m b) .vmad)
  | 6 => finish m (true) (mk3 (clsV m d) (clsV m a) (clsX m b) .vand)
  | 7 => finish m (true) (mk3 (clsV m d) (clsV m a) (clsX m b) .vor)
  | 8 => finish m (true) (mk3 (clsV m d) (clsV m a) (clsX m b) .vxor)
  | 9 => finish m (true) (mk3 (clsV m d) (clsV m a) (clsX m b) .vandn)
  | 10 => finish m (true) (mk3 (clsV m d) (clsV m a) (clsX m b) .vshl)
  | 11 => finish m (true) (mk3 (clsV m d) (clsV m a) (clsX m b) .vshr)
  | 12 => finish m (true) (mk3 (clsV m d) (clsV m a) (clsX m b) .vsra)
  | 13 => finish m (true) (mk3 (clsV m d) (clsV m a) (clsX m b) .vmin)
  | 14 => finish m (true) (mk3 (clsV m d) (clsV m a) (clsX m b) .vminu)
  | 15 => finish m (true) (mk3 (clsV m d) (clsV m a) (clsX m b) .vmax)
  | 16 => finish m (true) (mk3 (clsV m d) (clsV m a) (clsX m b) .vmaxu)
  | 17 => finish m (b == 0) (mk2 (clsV m d) (clsV m a) .vabs)
  | 18 => finish m (b == 0) (mk2 (clsV m d) (clsV m a) .vneg)
  | 19 => finish m (b == 0) (mk2 (clsV m d) (clsV m a) .vclz)
  | 20 => finish m (b == 0) (mk2 (clsV m d) (clsV m a) .vpopc)
  | 21 => finish m (b == 0) (mk2 (clsV m d) (clsV m a) .vbrev)
  | 22 => finish m (true) (mk3 (clsV m d) (clsV m a) (clsX m b) .vbfe)
  | 23 => finish m (true) (mk3 (clsV m d) (clsV m a) (clsX m b) .vbfeu)
  | 24 => finish m (true) (mk3 (clsV m d) (clsV m a) (clsX m b) .vbfi)
  | 25 => finish m (true) (mk3 (clsV m d) (clsV m a) (clsX m b) .vadd64)
  | 26 => finish m (true) (mk3 (clsV m d) (clsV m a) (clsX m b) .vsub64)
  | 27 => finish m (true) (mk3 (clsV m d) (clsV m a) (clsX m b) .vmul64)
  | 28 => finish m (true) (mk3 (clsV m d) (clsV m a) (clsX m b) .vshl64)
  | 29 => finish m (true) (mk3 (clsV m d) (clsV m a) (clsX m b) .vshr64)
  | 30 => finish m (true) (mk3 (clsV m d) (clsV m a) (clsX m b) .vsra64)
  | 31 => finish m (true) (mk3 (clsV m d) (clsV m a) (clsX m b) .vdp4)
  | 32 => finish m (true) (mk3 (clsV m d) (clsV m a) (clsX m b) .vdp4u)
  | 33 => finish m (b == 0) (mk2 (clsV m d) (clsX m a) .vmov)
  | _ => unknown

/-- Major 0x15 (07 R177). -/
def decodeVf32 (m : Mode) (fn d a b : Nat) : Except Reject Instr :=
  match fn with
  | 0 => finish m (true) (mk3 (clsV m d) (clsV m a) (clsX m b) .vfadd)
  | 1 => finish m (true) (mk3 (clsV m d) (clsV m a) (clsX m b) .vfsub)
  | 2 => finish m (true) (mk3 (clsV m d) (clsV m a) (clsX m b) .vfmul)
  | 3 => finish m (true) (mk3 (clsV m d) (clsV m a) (clsX m b) .vfma)
  | 4 => finish m (true) (mk3 (clsV m d) (clsV m a) (clsX m b) .vfms)
  | 5 => finish m (true) (mk3 (clsV m d) (clsV m a) (clsX m b) .vfnma)
  | 6 => finish m (true) (mk3 (clsV m d) (clsV m a) (clsX m b) .vfmin)
  | 7 => finish m (true) (mk3 (clsV m d) (clsV m a) (clsX m b) .vfmax)
  | 8 => finish m (b == 0) (mk2 (clsV m d) (clsV m a) .vfabs)
  | 9 => finish m (b == 0) (mk2 (clsV m d) (clsV m a) .vfneg)
  | 10 => finish m (true) (mk3 (clsV m d) (clsV m a) (clsX m b) .vfcpsgn)
  | 11 => finish m (true) (mk3 (clsV m d) (clsV m a) (clsX m b) .vfscale)
  | 12 => finish m (b == 0) (mk2 (clsV m d) (clsV m a) .vfrndn)
  | 13 => finish m (b == 0) (mk2 (clsV m d) (clsV m a) .vfrndz)
  | 14 => finish m (b == 0) (mk2 (clsV m d) (clsV m a) .vfrndu)
  | 15 => finish m (b == 0) (mk2 (clsV m d) (clsV m a) .vfrndd)
  | 16 => finish m (true) (mk3 (clsV m d) (clsV m a) (clsX m b) .vfdiv)
  | 17 => finish m (b == 0) (mk2 (clsV m d) (clsV m a) .vfsqrt)
  | 18 => finish m (b == 0) (mk2 (clsV m d) (clsV m a) .vfrcp)
  | 19 => finish m (b == 0) (mk2 (clsV m d) (clsV m a) .vfrsq)
  | _ => unknown

/-- Major 0x16 (07 R177). -/
def decodeVf64 (m : Mode) (fn d a b : Nat) : Except Reject Instr :=
  match fn with
  | 0 => finish m (true) (mk3 (clsV m d) (clsV m a) (clsX m b) .vdadd)
  | 1 => finish m (true) (mk3 (clsV m d) (clsV m a) (clsX m b) .vdsub)
  | 2 => finish m (true) (mk3 (clsV m d) (clsV m a) (clsX m b) .vdmul)
  | 3 => finish m (true) (mk3 (clsV m d) (clsV m a) (clsX m b) .vdfma)
  | 4 => finish m (true) (mk3 (clsV m d) (clsV m a) (clsX m b) .vdfms)
  | 5 => finish m (true) (mk3 (clsV m d) (clsV m a) (clsX m b) .vdfnma)
  | 6 => finish m (true) (mk3 (clsV m d) (clsV m a) (clsX m b) .vdmin)
  | 7 => finish m (true) (mk3 (clsV m d) (clsV m a) (clsX m b) .vdmax)
  | 8 => finish m (b == 0) (mk2 (clsV m d) (clsV m a) .vdabs)
  | 9 => finish m (b == 0) (mk2 (clsV m d) (clsV m a) .vdneg)
  | 10 => finish m (true) (mk3 (clsV m d) (clsV m a) (clsX m b) .vdscale)
  | 11 => finish m (b == 0) (mk2 (clsV m d) (clsV m a) .vdrndn)
  | 12 => finish m (b == 0) (mk2 (clsV m d) (clsV m a) .vdrndz)
  | 13 => finish m (true) (mk3 (clsV m d) (clsV m a) (clsX m b) .vddiv)
  | 14 => finish m (b == 0) (mk2 (clsV m d) (clsV m a) .vdsqrt)
  | 15 => finish m (b == 0) (mk2 (clsV m d) (clsV m a) .vdrcp)
  | 16 => finish m (b == 0) (mk2 (clsV m d) (clsV m a) .vdrsq)
  | _ => unknown

/-- Major 0x18 (07 R177). -/
def decodeVcvt (m : Mode) (fn d a b : Nat) : Except Reject Instr :=
  match fn with
  | 0 => finish m (b == 0) (mk2 (clsV m d) (clsV m a) .vcvtF64F32)
  | 1 => finish m (b == 0) (mk2 (clsV m d) (clsV m a) .vcvtF32F64)
  | 2 => finish m (true) (mk3 (clsV m d) (clsV m a) (clsX m b) .vcvtBf16F32)
  | 3 => finish m (b == 0) (mk2 (clsV m d) (clsV m a) .vcvtF32Bf16)
  | 4 => finish m (true) (mk3 (clsV m d) (clsV m a) (clsX m b) .vcvtF16F32)
  | 5 => finish m (b == 0) (mk2 (clsV m d) (clsV m a) .vcvtF32F16)
  | 6 => finish m (true) (mk3 (clsV m d) (clsV m a) (clsX m b) .vcvtE4m3F32)
  | 7 => finish m (true) (mk3 (clsV m d) (clsV m a) (clsX m b) .vcvtE5m2F32)
  | 8 => finish m (b == 0) (mk2 (clsV m d) (clsV m a) .vcvtF32E4m3)
  | 9 => finish m (b == 0) (mk2 (clsV m d) (clsV m a) .vcvtF32E5m2)
  | 10 => finish m (b == 0) (mk2 (clsV m d) (clsV m a) .vcvtS32F32)
  | 11 => finish m (b == 0) (mk2 (clsV m d) (clsV m a) .vcvtU32F32)
  | 12 => finish m (b == 0) (mk2 (clsV m d) (clsV m a) .vcvtF32S32)
  | 13 => finish m (b == 0) (mk2 (clsV m d) (clsV m a) .vcvtF32U32)
  | 14 => finish m (b == 0) (mk2 (clsV m d) (clsV m a) .vcvtS64F64)
  | 15 => finish m (b == 0) (mk2 (clsV m d) (clsV m a) .vcvtF64S64)
  | 16 => finish m (b == 0) (mk2 (clsV m d) (clsV m a) .vcvtS32F64)
  | 17 => finish m (b == 0) (mk2 (clsV m d) (clsV m a) .vcvtF64S32)
  | 18 => finish m (b == 0) (mk2 (clsV m d) (clsV m a) .vfclass)
  | 19 => finish m (b == 0) (mk2 (clsV m d) (clsV m a) .vdclass)
  | 20 => finish m (b == 0) (mk2 (clsV m d) (clsV m a) .vexp2)
  | 21 => finish m (b == 0) (mk2 (clsV m d) (clsV m a) .vlog2)
  | 22 => finish m (b == 0) (mk2 (clsV m d) (clsV m a) .vsin)
  | 23 => finish m (b == 0) (mk2 (clsV m d) (clsV m a) .vcos)
  | 24 => finish m (b == 0) (mk2 (clsV m d) (clsV m a) .teval)
  | 25 => finish m (d == 0) (mk2 (clsV m a) (clsS b) .tld)
  | _ => unknown

/-- Major 0x19 (07 R177). -/
def decodeVcmp (m : Mode) (fn d a b : Nat) : Except Reject Instr :=
  match fn with
  | 0 => finish m (decide (d < 32)) (mk3 (clsP m d) (clsV m a) (clsX m b) .vicmpEq)
  | 1 => finish m (decide (d < 32)) (mk3 (clsP m d) (clsV m a) (clsX m b) .vicmpNe)
  | 2 => finish m (decide (d < 32)) (mk3 (clsP m d) (clsV m a) (clsX m b) .vicmpLt)
  | 3 => finish m (decide (d < 32)) (mk3 (clsP m d) (clsV m a) (clsX m b) .vicmpLe)
  | 4 => finish m (decide (d < 32)) (mk3 (clsP m d) (clsV m a) (clsX m b) .vicmpLtu)
  | 5 => finish m (decide (d < 32)) (mk3 (clsP m d) (clsV m a) (clsX m b) .vicmpLeu)
  | 6 => finish m (decide (d < 32)) (mk3 (clsP m d) (clsV m a) (clsX m b) .vicmp64Eq)
  | 7 => finish m (decide (d < 32)) (mk3 (clsP m d) (clsV m a) (clsX m b) .vicmp64Lt)
  | 8 => finish m (decide (d < 32)) (mk3 (clsP m d) (clsV m a) (clsX m b) .vicmp64Ltu)
  | 9 => finish m (decide (d < 32)) (mk3 (clsP m d) (clsV m a) (clsX m b) .vfcmpEq)
  | 10 => finish m (decide (d < 32)) (mk3 (clsP m d) (clsV m a) (clsX m b) .vfcmpNe)
  | 11 => finish m (decide (d < 32)) (mk3 (clsP m d) (clsV m a) (clsX m b) .vfcmpLt)
  | 12 => finish m (decide (d < 32)) (mk3 (clsP m d) (clsV m a) (clsX m b) .vfcmpLe)
  | 13 => finish m (decide (d < 32)) (mk3 (clsP m d) (clsV m a) (clsX m b) .vfcmpUn)
  | 14 => finish m (decide (d < 32)) (mk3 (clsP m d) (clsV m a) (clsX m b) .vdcmpEq)
  | 15 => finish m (decide (d < 32)) (mk3 (clsP m d) (clsV m a) (clsX m b) .vdcmpNe)
  | 16 => finish m (decide (d < 32)) (mk3 (clsP m d) (clsV m a) (clsX m b) .vdcmpLt)
  | 17 => finish m (decide (d < 32)) (mk3 (clsP m d) (clsV m a) (clsX m b) .vdcmpLe)
  | 18 => finish m (decide (d < 32)) (mk3 (clsP m d) (clsV m a) (clsX m b) .vdcmpUn)
  | 19 => finish m (decide (d < 32) && decide (a < 32) && decide (b < 32)) (mk3 (clsP m d) (clsP m a) (clsP m b) .pand)
  | 20 => finish m (decide (d < 32) && decide (a < 32) && decide (b < 32)) (mk3 (clsP m d) (clsP m a) (clsP m b) .por)
  | 21 => finish m (decide (d < 32) && decide (a < 32) && decide (b < 32)) (mk3 (clsP m d) (clsP m a) (clsP m b) .pxor)
  | 22 => finish m (decide (d < 32) && decide (a < 32) && decide (b < 32)) (mk3 (clsP m d) (clsP m a) (clsP m b) .pandn)
  | 23 => finish m (decide (d < 32) && decide (a < 32) && b == 0) (mk2 (clsP m d) (clsP m a) .pnot)
  | 24 => finish m (decide (d < 32) && b == 0) (mk2 (clsP m d) (clsX m a) .pset)
  | 25 => finish m (decide (a < 32) && b == 0) (mk2 (clsV m d) (clsP m a) .psave)
  | 26 => finish m (decide (d < 32) && b == 0) (mk2 (clsP m d) (clsV m a) .prest)
  | 27 => finish m (decide (a < 32) && b == 0) (mk2 (clsS d) (clsP m a) .ballot)
  | 28 => finish m (d == 0 && decide (a < 32) && b == 0) ((clsP m a).map .mandp)
  | 29 => finish m (d == 0 && decide (a < 32) && b == 0) ((clsP m a).map .mandnp)
  | 30 => finish m (d == 0 && decide (a < 32) && b == 0) ((clsP m a).map .msetp)
  | 31 => finish m (decide (a < 32) && b == 0) (mk2 (clsS d) (clsP m a) .pcnt)
  | _ => unknown

/-- Major 0x1A (07 R177). -/
def decodeXlane (m : Mode) (fn d a b : Nat) : Except Reject Instr :=
  match fn with
  | 0 => finish m (true) (mk3 (clsV m d) (clsV m a) (clsX m b) .vperm)
  | 1 => finish m (true) (mk3 (clsV m d) (clsV m a) (clsX m b) .vshflx)
  | 2 => finish m (true) (mk3 (clsV m d) (clsV m a) (clsX m b) .vshflu)
  | 3 => finish m (true) (mk3 (clsV m d) (clsV m a) (clsX m b) .vshfld)
  | 4 => finish m (true) (mk3 (clsV m d) (clsV m a) (clsS b) .vbcast)
  | 5 => finish m (b == 0) (mk2 (clsV m d) (clsV m a) .vredAdd)
  | 6 => finish m (b == 0) (mk2 (clsV m d) (clsV m a) .vredMin)
  | 7 => finish m (b == 0) (mk2 (clsV m d) (clsV m a) .vredMax)
  | 8 => finish m (b == 0) (mk2 (clsV m d) (clsV m a) .vredAnd)
  | 9 => finish m (b == 0) (mk2 (clsV m d) (clsV m a) .vredOr)
  | 10 => finish m (b == 0) (mk2 (clsV m d) (clsV m a) .vredXor)
  | 11 => finish m (b == 0) (mk2 (clsV m d) (clsV m a) .vfredAdd)
  | 12 => finish m (b == 0) (mk2 (clsV m d) (clsV m a) .vscanAdd)
  | 13 => finish m (a == 0 && b == 0) ((clsV m d).map .vlane)
  | _ => unknown

/-- Major 0x1C (07 R177). -/
def decodeMatrix (m : Mode) (fn d a b : Nat) : Except Reject Instr :=
  match fn with
  | 0 => finish m (d == 0 && b == 0) ((clsS a).map .mfmt)
  | 1 => finish m (d < 4 && a < 8 && b < 8) (mk3 (clsN 4 d) (clsN 8 a) (clsN 8 b) .mma)
  | 2 => finish m (d < 4 && a < 8 && b < 8) (mk3 (clsN 4 d) (clsN 8 a) (clsN 8 b) .mmaL)
  | 3 => finish m (decide (d < 4) && a == 0 && b == 0) ((clsN 4 d).map .mzero)
  | 4 => finish m (a < 8) (mk3 (clsV m d) (clsN 4 (a % 4)) (clsS b) fun d n b => .acrd d n (4 ≤ a) b)
  | 5 => finish m (a < 8) (mk3 (clsV m d) (clsN 4 (a % 4)) (clsS b) fun d n b => .acwr d n (4 ≤ a) b)
  | 6 => finish m (a < 8) (mk3 (clsV m d) (clsN 8 a) (clsS b) .tbw)
  | 7 => finish m (a < 8) (mk3 (clsV m d) (clsN 8 a) (clsS b) .tbr)
  | 8 => finish m (d == 0) (mk2 (clsS a) (clsS b) .mpert)
  | 9 => finish m (d == 0 && a == 0 && b == 0) (some .msync)
  | 10 => finish m (d == 0 && b == 0) ((clsS a).map .seqgo)
  | _ => unknown

/-- Major 0x1E (07 R177). -/
def decodeUint (m : Mode) (fn d a b : Nat) : Except Reject Instr :=
  match fn with
  | 0 => finish m (d == 0) (mk2 (clsS a) (clsS b) .uisend)
  | 1 => finish m (d == 0) (mk2 (clsS a) (clsS b) .uisendw)
  | 2 => finish m (d == 0 && a == 0 && b == 0) (some .uiret)
  | 3 => finish m (a == 0) (mk2 (clsS d) (clsS b) .uiack)
  | 4 => finish m (a == 0 && b == 0) ((clsS d).map .uipoll)
  | _ => unknown

/-- Major 0x1F (07 R177). -/
def decodePriv (m : Mode) (fn d a b : Nat) : Except Reject Instr :=
  match fn with
  | 0 => finish m (d == 0 && a == 0 && b == 0) (some .trapret)
  | 1 => match PrivReg.ofIndex (a * 128 + b) with
    | none => unknown
    | some r => finish m true ((clsS d).map fun d => .srdp d r)
  | 2 => match PrivReg.ofIndex (a * 128 + b) with
    | none => unknown
    | some r => if r.writable then finish m true ((clsS d).map fun d => .swrp r d) else unknown
  | 3 => finish m (d == 0 && b == 0) ((clsS a).map .lsel)
  | 4 => finish m (b == 0) (mk2 (clsS d) (clsV m a) .lrdv)
  | 5 => finish m (b == 0) (mk2 (clsS d) (clsV m a) .lwrv)
  | 6 => finish m (decide (a < 32) && b == 0) (mk2 (clsS d) (clsP m a) .lrdp)
  | 7 => finish m (decide (a < 32) && b == 0) (mk2 (clsS d) (clsP m a) .lwrp)
  | 8 => finish m (d == 0) (mk2 (clsS a) (clsS b) .tlbinv)
  | 9 => finish m (d == 0 && a == 0 && b == 0) (some .tlbsync)
  | 10 => finish m (d == 0 && a == 0 && b == 0) (some .freplay)
  | 11 => finish m (d == 0 && a == 0 && b == 0) (some .fdrop)
  | 12 => finish m (d == 0 && b == 0) ((clsS a).map .halt)
  | _ => unknown

/-- Major 0x17 VFH: fn[5] is the format (10 R252). -/
def decodeVfh (m : Mode) (fn d a b : Nat) : Except Reject Instr :=
  let t := if fn / 32 == 0 then HFmt.bf else HFmt.hf
  match fn % 32 with
  | 0 => finish m (true) (mk3 (clsV m d) (clsV m a) (clsX m b) (.vhadd t))
  | 1 => finish m (true) (mk3 (clsV m d) (clsV m a) (clsX m b) (.vhsub t))
  | 2 => finish m (true) (mk3 (clsV m d) (clsV m a) (clsX m b) (.vhmul t))
  | 3 => finish m (true) (mk3 (clsV m d) (clsV m a) (clsX m b) (.vhfma t))
  | 4 => finish m (true) (mk3 (clsV m d) (clsV m a) (clsX m b) (.vhmin t))
  | 5 => finish m (true) (mk3 (clsV m d) (clsV m a) (clsX m b) (.vhmax t))
  | 6 => finish m (true) (mk3 (clsV m d) (clsV m a) (clsX m b) (.vhdot2 t))
  | _ => unknown

/-- Major 0x1B COPY: fn 0x00 to 0x1F is CPY with its leader predicate (07 R179). -/
def decodeCopy (m : Mode) (fn d a b : Nat) : Except Reject Instr :=
  if h : fn < 32 then finish m true (mk3 (clsS d) (clsX m a) (clsX m b) fun d a b => .cpy d ⟨fn, h⟩ a b)
  else match fn with
  | 32 => finish m (d == 0) (mk2 (clsS a) (clsS b) .swinit)
  | 33 => finish m (b < 2) (mk2 (clsS d) (clsS a) fun d a => .bara d a (b == 1))
  | 34 => finish m (b == 0) (mk2 (clsS d) (clsS a) .bard)
  | 35 => finish m (a == 0 && decide (b < 16)) (mk2 (clsS d) (clsN 16 b) .wmrd)
  | 36 => finish m (d == 0 && a == 0 && decide (b < 16)) ((clsN 16 b).map .wmclr)
  | 37 => finish m (d == 0 && a == 0 && decide (b < 16)) ((clsN 16 b).map .wmabort)
  | _ => unknown

/-- Major 0x0D (07 R178): fn[5] MODE, fn[4:3] HINT, fn[2:0] SIZE. -/
def decodeVld (m : Mode) (fn d a b : Nat) : Except Reject Instr :=
  let pair := fn / 32 == 1
  match (match fn / 8 % 4 with | 0 => some Hint.normal | 1 => some .s | 2 => some .nl | _ => none) with
  | none => unknown
  | some h =>
    match fn % 8 with
    | 0 => finish m (!pair || b == 0) (mk2 (clsV m d) (clsAddr m pair a b) (.vldb h))
    | 1 => finish m (!pair || b == 0) (mk2 (clsV m d) (clsAddr m pair a b) (.vldh h))
    | 2 => finish m (!pair || b == 0) (mk2 (clsV m d) (clsAddr m pair a b) (.vldw h))
    | 3 => finish m (!pair || b == 0) (mk2 (clsV m d) (clsAddr m pair a b) (.vldd h))
    | 4 => finish m (!pair || b == 0) (mk2 (clsV m d) (clsAddr m pair a b) (.vldq h))
    | _ => unknown

/-- Major 0x0E (07 R178): fn[5] MODE, fn[4:3] HINT, fn[2:0] SIZE. -/
def decodeVst (m : Mode) (fn d a b : Nat) : Except Reject Instr :=
  let pair := fn / 32 == 1
  match (match fn / 8 % 4 with | 0 => some Hint.normal | 1 => some .s | 2 => some .nl | _ => none) with
  | none => unknown
  | some h =>
    match fn % 8 with
    | 0 => finish m (!pair || b == 0) (mk2 (clsV m d) (clsAddr m pair a b) (.vstb h))
    | 1 => finish m (!pair || b == 0) (mk2 (clsV m d) (clsAddr m pair a b) (.vsth h))
    | 2 => finish m (!pair || b == 0) (mk2 (clsV m d) (clsAddr m pair a b) (.vstw h))
    | 3 => finish m (!pair || b == 0) (mk2 (clsV m d) (clsAddr m pair a b) (.vstd h))
    | 4 => finish m (!pair || b == 0) (mk2 (clsV m d) (clsAddr m pair a b) (.vstq h))
    | _ => unknown

/-- Major 0x0C SMEM (09 R223). -/
def decodeSmem (m : Mode) (sz d a i : Nat) : Except Reject Instr :=
  let i := BitVec.ofNat 10 i
  match sz with
  | 0 => finish m true (mk2 (clsS d) (clsS a) fun d a => .sldb d a i)
  | 1 => finish m true (mk2 (clsS d) (clsS a) fun d a => .sldh d a i)
  | 2 => finish m true (mk2 (clsS d) (clsS a) fun d a => .sldw d a i)
  | 3 => finish m true (mk2 (clsS d) (clsS a) fun d a => .sldd d a i)
  | 4 => finish m true (mk2 (clsS d) (clsS a) fun d a => .sstb d a i)
  | 5 => finish m true (mk2 (clsS d) (clsS a) fun d a => .ssth d a i)
  | 6 => finish m true (mk2 (clsS d) (clsS a) fun d a => .sstw d a i)
  | 7 => finish m true (mk2 (clsS d) (clsS a) fun d a => .sstd d a i)
  | _ => unknown

/-- Major 0x06 SSHI: [12:8] zero, [7:6] kind, [5:0] count (07 R173). -/
def decodeSshi (m : Mode) (d a i : Nat) : Except Reject Instr :=
  let n : Fin 64 := ⟨i % 64, Nat.mod_lt _ (by decide)⟩
  let rsv : Bool := i < 256
  match i / 64 % 4 with
  | 0 => finish m rsv (mk2 (clsS d) (clsS a) fun d a => .sshli d a n)
  | 1 => finish m rsv (mk2 (clsS d) (clsS a) fun d a => .sshri d a n)
  | 2 => finish m rsv (mk2 (clsS d) (clsS a) fun d a => .ssrai d a n)
  | _ => finish m rsv (mk2 (clsS d) (clsS a) fun d a => .sroti d a n)

/-- B and BL: step 3 of 07 R184 is a cond of 9 or of 20 to 31. -/
def decodeB (m : Mode) (c : Nat) (k : Cond → Instr) : Except Reject Instr :=
  match Cond.ofCode c with
  | none => .error (.illegal 5)
  | some c => finish m true (some (k c))

/-- The instruction a word is in a mode, or why it is none (07 R184, R185). -/
def decode (m : Mode) (w : Word) : Except Reject Instr :=
  let fn := fieldOf w 21 6
  let d := fieldOf w 14 7
  let a := fieldOf w 7 7
  let b := fieldOf w 0 7
  let d' := fieldOf w 20 7
  let a' := fieldOf w 13 7
  let i13 := BitVec.ofNat 13 (fieldOf w 0 13)
  let i20 := BitVec.ofNat 20 (fieldOf w 0 20)
  let o22 := BitVec.ofNat 22 (fieldOf w 0 22)
  match fieldOf w 27 5 with
  | 0x00 => decodeCtrl m fn d a b
  | 0x01 => decodeSalu m fn d a b
  | 0x02 => finish m true (mk2 (clsS d') (clsS a') fun d a => .saddi d a i13)
  | 0x03 => finish m true (mk2 (clsS d') (clsS a') fun d a => .sandi d a i13)
  | 0x04 => finish m true (mk2 (clsS d') (clsS a') fun d a => .sori d a i13)
  | 0x05 => finish m true (mk2 (clsS d') (clsS a') fun d a => .sxori d a i13)
  | 0x06 => decodeSshi m d' a' (fieldOf w 0 13)
  | 0x07 => finish m (d' == 0) ((clsS a').map fun a => .scmpi a i13)
  | 0x08 => finish m true ((clsS d').map fun d => .slui d i20)
  | 0x09 => finish m true ((clsS d').map fun d => .slhi d i20)
  | 0x0A => decodeB m (fieldOf w 22 5) fun c => .br c o22
  | 0x0B => decodeB m (fieldOf w 22 5) fun c => .bl c o22
  | 0x0C => decodeSmem m (fieldOf w 10 3) d' a' (fieldOf w 0 10)
  | 0x0D => decodeVld m fn d a b
  | 0x0E => decodeVst m fn d a b
  | 0x0F => decodeVatom m fn d a b
  | 0x10 => decodeSpm m fn d a b
  | 0x11 => decodeMemctl m fn d a b
  | 0x12 => decodeVialu m fn d a b
  | 0x13 => finish m (d' == 0) (some (.sigchk i20))
  | 0x14 => finish m true ((clsV m d').map fun d => .vmovi d i20)
  | 0x15 => decodeVf32 m fn d a b
  | 0x16 => decodeVf64 m fn d a b
  | 0x17 => decodeVfh m fn d a b
  | 0x18 => decodeVcvt m fn d a b
  | 0x19 => decodeVcmp m fn d a b
  | 0x1A => decodeXlane m fn d a b
  | 0x1B => decodeCopy m fn d a b
  | 0x1C => decodeMatrix m fn d a b
  | 0x1D =>
    let p : PReg := ⟨fieldOf w 22 5 % 32, Nat.mod_lt _ (by decide)⟩
    if fieldOf w 21 1 == 0 then finish m true (mk3 (clsV m d) (clsV m a) (clsX m b) (.vsel p))
    else finish m (a == 0) (mk2 (clsV m d) (clsX m b) (.vpmov p))
  | 0x1E => decodeUint m fn d a b
  | _ => decodePriv m fn d a b

/-- The word of an R-form instruction (07 R172). -/
def packR (major fn d a b : Nat) : Word :=
  BitVec.ofNat 32 (major * 2 ^ 27 + fn * 2 ^ 21 + d * 2 ^ 14 + a * 2 ^ 7 + b)
/-- The word of an I- or M-form instruction (07 R172). -/
def packI (major d a i : Nat) : Word := BitVec.ofNat 32 (major * 2 ^ 27 + d * 2 ^ 20 + a * 2 ^ 13 + i)
/-- The word of a U-form instruction (07 R172). -/
def packU (major d i : Nat) : Word := BitVec.ofNat 32 (major * 2 ^ 27 + d * 2 ^ 20 + i)
/-- The word of a B-form instruction (07 R172). -/
def packB (major c o : Nat) : Word := BitVec.ofNat 32 (major * 2 ^ 27 + c * 2 ^ 22 + o)

/-- sn encodes as 96 + n (07 R174). -/
def encS (r : SReg) : Nat := 96 + r.val
def encX : XOpnd → Nat
  | .v r => r.val
  | .s r => encS r
def encA : VAddr → Nat
  | .base a _ => encS a
  | .pair a => a.val
def encB : VAddr → Nat
  | .base _ b => encX b
  | .pair _ => 0
/-- fn of VLD and VST (07 R178). -/
def encFn (h : Hint) (adr : VAddr) (size : Nat) : Nat :=
  (match adr with | .base _ _ => 0 | .pair _ => 32) + h.code * 8 + size
def encHF : HFmt → Nat
  | .bf => 0
  | .hf => 32

/-- The word of an instruction (07 R172 to R180, 12 R288, 13 R319, 15 R344); an event has none, and encodes as 0. -/
def encode : Instr → Word
  | .nop => packR 0 0 0 0 0
  | .exit => packR 0 1 0 0 0
  | .lexit => packR 0 2 0 0 0
  | .yield => packR 0 3 0 0 0
  | .sys => packR 0 4 0 0 0
  | .brk => packR 0 5 0 0 0
  | .sigrst => packR 0 6 0 0 0
  | .fetchb => packR 0 7 0 0 0
  | .win n => packR 0 8 n.val 0 0
  | .wait d a n all => packR 0 9 (encS d) (encS a) (n.val * 2 + all.toNat)
  | .waitc => packR 0 10 0 0 0
  | .launch d a => packR 0 11 (encS d) (encS a) 0
  | .srd d i => packR 0 12 (encX d) (i.index / 128) (i.index % 128)
  | .swr i d => packR 0 13 (encS d) (i.index / 128) (i.index % 128)
  | .jr a => packR 0 14 0 (encS a) 0
  | .jlr d a => packR 0 15 (encS d) (encS a) 0
  | .pinon => packR 0 16 0 0 0
  | .pinoff => packR 0 17 0 0 0
  | .sadd d a b => packR 1 0 (encS d) (encS a) (encS b)
  | .ssub d a b => packR 1 1 (encS d) (encS a) (encS b)
  | .smul d a b => packR 1 2 (encS d) (encS a) (encS b)
  | .smulh d a b => packR 1 3 (encS d) (encS a) (encS b)
  | .smulhu d a b => packR 1 4 (encS d) (encS a) (encS b)
  | .sdiv d a b => packR 1 5 (encS d) (encS a) (encS b)
  | .sdivu d a b => packR 1 6 (encS d) (encS a) (encS b)
  | .srem d a b => packR 1 7 (encS d) (encS a) (encS b)
  | .sremu d a b => packR 1 8 (encS d) (encS a) (encS b)
  | .sand d a b => packR 1 9 (encS d) (encS a) (encS b)
  | .sor d a b => packR 1 10 (encS d) (encS a) (encS b)
  | .sxor d a b => packR 1 11 (encS d) (encS a) (encS b)
  | .sandn d a b => packR 1 12 (encS d) (encS a) (encS b)
  | .sshl d a b => packR 1 13 (encS d) (encS a) (encS b)
  | .sshr d a b => packR 1 14 (encS d) (encS a) (encS b)
  | .ssra d a b => packR 1 15 (encS d) (encS a) (encS b)
  | .smin d a b => packR 1 16 (encS d) (encS a) (encS b)
  | .smax d a b => packR 1 17 (encS d) (encS a) (encS b)
  | .sminu d a b => packR 1 18 (encS d) (encS a) (encS b)
  | .smaxu d a b => packR 1 19 (encS d) (encS a) (encS b)
  | .sclz d a => packR 1 20 (encS d) (encS a) 0
  | .sctz d a => packR 1 21 (encS d) (encS a) 0
  | .spopc d a => packR 1 22 (encS d) (encS a) 0
  | .sbrev d a => packR 1 23 (encS d) (encS a) 0
  | .sbfe d a b => packR 1 24 (encS d) (encS a) (encS b)
  | .sbfeu d a b => packR 1 25 (encS d) (encS a) (encS b)
  | .sbfi d a b => packR 1 26 (encS d) (encS a) (encS b)
  | .scmp a b => packR 1 27 0 (encS a) (encS b)
  | .ssel d a b => packR 1 28 (encS d) (encS a) (encS b)
  | .saddi d a i => packI 2 (encS d) (encS a) i.toNat
  | .sandi d a i => packI 3 (encS d) (encS a) i.toNat
  | .sori d a i => packI 4 (encS d) (encS a) i.toNat
  | .sxori d a i => packI 5 (encS d) (encS a) i.toNat
  | .sshli d a n => packI 6 (encS d) (encS a) (0 * 64 + n.val)
  | .sshri d a n => packI 6 (encS d) (encS a) (1 * 64 + n.val)
  | .ssrai d a n => packI 6 (encS d) (encS a) (2 * 64 + n.val)
  | .sroti d a n => packI 6 (encS d) (encS a) (3 * 64 + n.val)
  | .scmpi a i => packI 7 0 (encS a) i.toNat
  | .slui d i => packU 8 (encS d) i.toNat
  | .slhi d i => packU 9 (encS d) i.toNat
  | .br c o => packB 10 c.code o.toNat
  | .bl c o => packB 11 c.code o.toNat
  | .sldb d a i => packI 12 (encS d) (encS a) (0 * 1024 + i.toNat)
  | .sldh d a i => packI 12 (encS d) (encS a) (1 * 1024 + i.toNat)
  | .sldw d a i => packI 12 (encS d) (encS a) (2 * 1024 + i.toNat)
  | .sldd d a i => packI 12 (encS d) (encS a) (3 * 1024 + i.toNat)
  | .sstb d a i => packI 12 (encS d) (encS a) (4 * 1024 + i.toNat)
  | .ssth d a i => packI 12 (encS d) (encS a) (5 * 1024 + i.toNat)
  | .sstw d a i => packI 12 (encS d) (encS a) (6 * 1024 + i.toNat)
  | .sstd d a i => packI 12 (encS d) (encS a) (7 * 1024 + i.toNat)
  | .vldb h d adr => packR 13 (encFn h adr 0) d.val (encA adr) (encB adr)
  | .vldh h d adr => packR 13 (encFn h adr 1) d.val (encA adr) (encB adr)
  | .vldw h d adr => packR 13 (encFn h adr 2) d.val (encA adr) (encB adr)
  | .vldd h d adr => packR 13 (encFn h adr 3) d.val (encA adr) (encB adr)
  | .vldq h d adr => packR 13 (encFn h adr 4) d.val (encA adr) (encB adr)
  | .vstb h d adr => packR 14 (encFn h adr 0) d.val (encA adr) (encB adr)
  | .vsth h d adr => packR 14 (encFn h adr 1) d.val (encA adr) (encB adr)
  | .vstw h d adr => packR 14 (encFn h adr 2) d.val (encA adr) (encB adr)
  | .vstd h d adr => packR 14 (encFn h adr 3) d.val (encA adr) (encB adr)
  | .vstq h d adr => packR 14 (encFn h adr 4) d.val (encA adr) (encB adr)
  | .atomAddW d adr => packR 15 0 d.val (encA adr) (encB adr)
  | .atomAddD d adr => packR 15 1 d.val (encA adr) (encB adr)
  | .atomMinW d adr => packR 15 2 d.val (encA adr) (encB adr)
  | .atomMaxW d adr => packR 15 3 d.val (encA adr) (encB adr)
  | .atomMinuW d adr => packR 15 4 d.val (encA adr) (encB adr)
  | .atomMaxuW d adr => packR 15 5 d.val (encA adr) (encB adr)
  | .atomMinD d adr => packR 15 6 d.val (encA adr) (encB adr)
  | .atomMaxD d adr => packR 15 7 d.val (encA adr) (encB adr)
  | .atomAndW d adr => packR 15 8 d.val (encA adr) (encB adr)
  | .atomOrW d adr => packR 15 9 d.val (encA adr) (encB adr)
  | .atomXorW d adr => packR 15 10 d.val (encA adr) (encB adr)
  | .atomAndD d adr => packR 15 11 d.val (encA adr) (encB adr)
  | .atomOrD d adr => packR 15 12 d.val (encA adr) (encB adr)
  | .atomXorD d adr => packR 15 13 d.val (encA adr) (encB adr)
  | .atomSwapW d adr => packR 15 14 d.val (encA adr) (encB adr)
  | .atomSwapD d adr => packR 15 15 d.val (encA adr) (encB adr)
  | .atomCasW d adr => packR 15 16 d.val (encA adr) (encB adr)
  | .atomCasD d adr => packR 15 17 d.val (encA adr) (encB adr)
  | .atomFaddF32 d adr => packR 15 18 d.val (encA adr) (encB adr)
  | .atomFaddF64 d adr => packR 15 19 d.val (encA adr) (encB adr)
  | .atomFminF32 d adr => packR 15 20 d.val (encA adr) (encB adr)
  | .atomFmaxF32 d adr => packR 15 21 d.val (encA adr) (encB adr)
  | .spldb d a b => packR 16 0 d.val (encS a) (encX b)
  | .spldh d a b => packR 16 1 d.val (encS a) (encX b)
  | .spldw d a b => packR 16 2 d.val (encS a) (encX b)
  | .spldd d a b => packR 16 3 d.val (encS a) (encX b)
  | .spldq d a b => packR 16 4 d.val (encS a) (encX b)
  | .spstb d a b => packR 16 5 d.val (encS a) (encX b)
  | .spsth d a b => packR 16 6 d.val (encS a) (encX b)
  | .spstw d a b => packR 16 7 d.val (encS a) (encX b)
  | .spstd d a b => packR 16 8 d.val (encS a) (encX b)
  | .spstq d a b => packR 16 9 d.val (encS a) (encX b)
  | .spatomAdd d a b => packR 16 10 d.val (encS a) (encX b)
  | .spatomMin d a b => packR 16 11 d.val (encS a) (encX b)
  | .spatomMax d a b => packR 16 12 d.val (encS a) (encX b)
  | .spatomSwap d a b => packR 16 13 d.val (encS a) (encX b)
  | .spatomCas d a b => packR 16 14 d.val (encS a) (encX b)
  | .spatomFadd d a b => packR 16 15 d.val (encS a) (encX b)
  | .fenceCore => packR 17 0 0 0 0
  | .fencePkg => packR 17 1 0 0 0
  | .fenceSpan => packR 17 2 0 0 0
  | .cflush a b => packR 17 3 0 (encS a) (match b with | none => 0 | some b => encS b)
  | .cinv a b => packR 17 4 0 (encS a) (match b with | none => 0 | some b => encS b)
  | .pref a b => packR 17 5 0 (encS a) (match b with | none => 0 | some b => encS b)
  | .icinv a b => packR 17 6 0 (encS a) (match b with | none => 0 | some b => encS b)
  | .rput d a b => packR 17 7 d.val (encS a) (encX b)
  | .rputf d a b => packR 17 8 d.val (encS a) (encX b)
  | .rget d a b => packR 17 9 d.val (encS a) (encX b)
  | .ratom d a b => packR 17 10 d.val (encS a) (encX b)
  | .satomAdd d a => packR 17 11 (encS d) (encS a) 0
  | .satomSwap d a => packR 17 12 (encS d) (encS a) 0
  | .satomCas d a b => packR 17 13 (encS d) (encS a) (encS b)
  | .satomMin d a => packR 17 14 (encS d) (encS a) 0
  | .satomMax d a => packR 17 15 (encS d) (encS a) 0
  | .satomOr d a => packR 17 16 (encS d) (encS a) 0
  | .satomAnd d a => packR 17 17 (encS d) (encS a) 0
  | .vadd d a b => packR 18 0 d.val a.val (encX b)
  | .vsub d a b => packR 18 1 d.val a.val (encX b)
  | .vmul d a b => packR 18 2 d.val a.val (encX b)
  | .vmulh d a b => packR 18 3 d.val a.val (encX b)
  | .vmulhu d a b => packR 18 4 d.val a.val (encX b)
  | .vmad d a b => packR 18 5 d.val a.val (encX b)
  | .vand d a b => packR 18 6 d.val a.val (encX b)
  | .vor d a b => packR 18 7 d.val a.val (encX b)
  | .vxor d a b => packR 18 8 d.val a.val (encX b)
  | .vandn d a b => packR 18 9 d.val a.val (encX b)
  | .vshl d a b => packR 18 10 d.val a.val (encX b)
  | .vshr d a b => packR 18 11 d.val a.val (encX b)
  | .vsra d a b => packR 18 12 d.val a.val (encX b)
  | .vmin d a b => packR 18 13 d.val a.val (encX b)
  | .vminu d a b => packR 18 14 d.val a.val (encX b)
  | .vmax d a b => packR 18 15 d.val a.val (encX b)
  | .vmaxu d a b => packR 18 16 d.val a.val (encX b)
  | .vabs d a => packR 18 17 d.val a.val 0
  | .vneg d a => packR 18 18 d.val a.val 0
  | .vclz d a => packR 18 19 d.val a.val 0
  | .vpopc d a => packR 18 20 d.val a.val 0
  | .vbrev d a => packR 18 21 d.val a.val 0
  | .vbfe d a b => packR 18 22 d.val a.val (encX b)
  | .vbfeu d a b => packR 18 23 d.val a.val (encX b)
  | .vbfi d a b => packR 18 24 d.val a.val (encX b)
  | .vadd64 d a b => packR 18 25 d.val a.val (encX b)
  | .vsub64 d a b => packR 18 26 d.val a.val (encX b)
  | .vmul64 d a b => packR 18 27 d.val a.val (encX b)
  | .vshl64 d a b => packR 18 28 d.val a.val (encX b)
  | .vshr64 d a b => packR 18 29 d.val a.val (encX b)
  | .vsra64 d a b => packR 18 30 d.val a.val (encX b)
  | .vdp4 d a b => packR 18 31 d.val a.val (encX b)
  | .vdp4u d a b => packR 18 32 d.val a.val (encX b)
  | .vmov d a => packR 18 33 d.val (encX a) 0
  | .sigchk i => packU 19 0 i.toNat
  | .vmovi d i => packU 20 d.val i.toNat
  | .vfadd d a b => packR 21 0 d.val a.val (encX b)
  | .vfsub d a b => packR 21 1 d.val a.val (encX b)
  | .vfmul d a b => packR 21 2 d.val a.val (encX b)
  | .vfma d a b => packR 21 3 d.val a.val (encX b)
  | .vfms d a b => packR 21 4 d.val a.val (encX b)
  | .vfnma d a b => packR 21 5 d.val a.val (encX b)
  | .vfmin d a b => packR 21 6 d.val a.val (encX b)
  | .vfmax d a b => packR 21 7 d.val a.val (encX b)
  | .vfabs d a => packR 21 8 d.val a.val 0
  | .vfneg d a => packR 21 9 d.val a.val 0
  | .vfcpsgn d a b => packR 21 10 d.val a.val (encX b)
  | .vfscale d a b => packR 21 11 d.val a.val (encX b)
  | .vfrndn d a => packR 21 12 d.val a.val 0
  | .vfrndz d a => packR 21 13 d.val a.val 0
  | .vfrndu d a => packR 21 14 d.val a.val 0
  | .vfrndd d a => packR 21 15 d.val a.val 0
  | .vfdiv d a b => packR 21 16 d.val a.val (encX b)
  | .vfsqrt d a => packR 21 17 d.val a.val 0
  | .vfrcp d a => packR 21 18 d.val a.val 0
  | .vfrsq d a => packR 21 19 d.val a.val 0
  | .vdadd d a b => packR 22 0 d.val a.val (encX b)
  | .vdsub d a b => packR 22 1 d.val a.val (encX b)
  | .vdmul d a b => packR 22 2 d.val a.val (encX b)
  | .vdfma d a b => packR 22 3 d.val a.val (encX b)
  | .vdfms d a b => packR 22 4 d.val a.val (encX b)
  | .vdfnma d a b => packR 22 5 d.val a.val (encX b)
  | .vdmin d a b => packR 22 6 d.val a.val (encX b)
  | .vdmax d a b => packR 22 7 d.val a.val (encX b)
  | .vdabs d a => packR 22 8 d.val a.val 0
  | .vdneg d a => packR 22 9 d.val a.val 0
  | .vdscale d a b => packR 22 10 d.val a.val (encX b)
  | .vdrndn d a => packR 22 11 d.val a.val 0
  | .vdrndz d a => packR 22 12 d.val a.val 0
  | .vddiv d a b => packR 22 13 d.val a.val (encX b)
  | .vdsqrt d a => packR 22 14 d.val a.val 0
  | .vdrcp d a => packR 22 15 d.val a.val 0
  | .vdrsq d a => packR 22 16 d.val a.val 0
  | .vhadd t d a b => packR 23 (encHF t + 0) d.val a.val (encX b)
  | .vhsub t d a b => packR 23 (encHF t + 1) d.val a.val (encX b)
  | .vhmul t d a b => packR 23 (encHF t + 2) d.val a.val (encX b)
  | .vhfma t d a b => packR 23 (encHF t + 3) d.val a.val (encX b)
  | .vhmin t d a b => packR 23 (encHF t + 4) d.val a.val (encX b)
  | .vhmax t d a b => packR 23 (encHF t + 5) d.val a.val (encX b)
  | .vhdot2 t d a b => packR 23 (encHF t + 6) d.val a.val (encX b)
  | .vcvtF64F32 d a => packR 24 0 d.val a.val 0
  | .vcvtF32F64 d a => packR 24 1 d.val a.val 0
  | .vcvtBf16F32 d a b => packR 24 2 d.val a.val (encX b)
  | .vcvtF32Bf16 d a => packR 24 3 d.val a.val 0
  | .vcvtF16F32 d a b => packR 24 4 d.val a.val (encX b)
  | .vcvtF32F16 d a => packR 24 5 d.val a.val 0
  | .vcvtE4m3F32 d a b => packR 24 6 d.val a.val (encX b)
  | .vcvtE5m2F32 d a b => packR 24 7 d.val a.val (encX b)
  | .vcvtF32E4m3 d a => packR 24 8 d.val a.val 0
  | .vcvtF32E5m2 d a => packR 24 9 d.val a.val 0
  | .vcvtS32F32 d a => packR 24 10 d.val a.val 0
  | .vcvtU32F32 d a => packR 24 11 d.val a.val 0
  | .vcvtF32S32 d a => packR 24 12 d.val a.val 0
  | .vcvtF32U32 d a => packR 24 13 d.val a.val 0
  | .vcvtS64F64 d a => packR 24 14 d.val a.val 0
  | .vcvtF64S64 d a => packR 24 15 d.val a.val 0
  | .vcvtS32F64 d a => packR 24 16 d.val a.val 0
  | .vcvtF64S32 d a => packR 24 17 d.val a.val 0
  | .vfclass d a => packR 24 18 d.val a.val 0
  | .vdclass d a => packR 24 19 d.val a.val 0
  | .vexp2 d a => packR 24 20 d.val a.val 0
  | .vlog2 d a => packR 24 21 d.val a.val 0
  | .vsin d a => packR 24 22 d.val a.val 0
  | .vcos d a => packR 24 23 d.val a.val 0
  | .teval d a => packR 24 24 d.val a.val 0
  | .tld a b => packR 24 25 0 a.val (encS b)
  | .vicmpEq d a b => packR 25 0 d.val a.val (encX b)
  | .vicmpNe d a b => packR 25 1 d.val a.val (encX b)
  | .vicmpLt d a b => packR 25 2 d.val a.val (encX b)
  | .vicmpLe d a b => packR 25 3 d.val a.val (encX b)
  | .vicmpLtu d a b => packR 25 4 d.val a.val (encX b)
  | .vicmpLeu d a b => packR 25 5 d.val a.val (encX b)
  | .vicmp64Eq d a b => packR 25 6 d.val a.val (encX b)
  | .vicmp64Lt d a b => packR 25 7 d.val a.val (encX b)
  | .vicmp64Ltu d a b => packR 25 8 d.val a.val (encX b)
  | .vfcmpEq d a b => packR 25 9 d.val a.val (encX b)
  | .vfcmpNe d a b => packR 25 10 d.val a.val (encX b)
  | .vfcmpLt d a b => packR 25 11 d.val a.val (encX b)
  | .vfcmpLe d a b => packR 25 12 d.val a.val (encX b)
  | .vfcmpUn d a b => packR 25 13 d.val a.val (encX b)
  | .vdcmpEq d a b => packR 25 14 d.val a.val (encX b)
  | .vdcmpNe d a b => packR 25 15 d.val a.val (encX b)
  | .vdcmpLt d a b => packR 25 16 d.val a.val (encX b)
  | .vdcmpLe d a b => packR 25 17 d.val a.val (encX b)
  | .vdcmpUn d a b => packR 25 18 d.val a.val (encX b)
  | .pand d a b => packR 25 19 d.val a.val b.val
  | .por d a b => packR 25 20 d.val a.val b.val
  | .pxor d a b => packR 25 21 d.val a.val b.val
  | .pandn d a b => packR 25 22 d.val a.val b.val
  | .pnot d a => packR 25 23 d.val a.val 0
  | .pset d a => packR 25 24 d.val (encX a) 0
  | .psave d a => packR 25 25 d.val a.val 0
  | .prest d a => packR 25 26 d.val a.val 0
  | .ballot d a => packR 25 27 (encS d) a.val 0
  | .mandp a => packR 25 28 0 a.val 0
  | .mandnp a => packR 25 29 0 a.val 0
  | .msetp a => packR 25 30 0 a.val 0
  | .pcnt d a => packR 25 31 (encS d) a.val 0
  | .vperm d a b => packR 26 0 d.val a.val (encX b)
  | .vshflx d a b => packR 26 1 d.val a.val (encX b)
  | .vshflu d a b => packR 26 2 d.val a.val (encX b)
  | .vshfld d a b => packR 26 3 d.val a.val (encX b)
  | .vbcast d a b => packR 26 4 d.val a.val (encS b)
  | .vredAdd d a => packR 26 5 d.val a.val 0
  | .vredMin d a => packR 26 6 d.val a.val 0
  | .vredMax d a => packR 26 7 d.val a.val 0
  | .vredAnd d a => packR 26 8 d.val a.val 0
  | .vredOr d a => packR 26 9 d.val a.val 0
  | .vredXor d a => packR 26 10 d.val a.val 0
  | .vfredAdd d a => packR 26 11 d.val a.val 0
  | .vscanAdd d a => packR 26 12 d.val a.val 0
  | .vlane d => packR 26 13 d.val 0 0
  | .cpy c p a b => packR 27 p.val (encS c) (encX a) (encX b)
  | .swinit a b => packR 27 32 0 (encS a) (encS b)
  | .bara d a w => packR 27 33 (encS d) (encS a) w.toNat
  | .bard d a => packR 27 34 (encS d) (encS a) 0
  | .wmrd d n => packR 27 35 (encS d) 0 n.val
  | .wmclr n => packR 27 36 0 0 n.val
  | .wmabort n => packR 27 37 0 0 n.val
  | .mfmt a => packR 28 0 0 (encS a) 0
  | .mma d a b => packR 28 1 d.val a.val b.val
  | .mmaL d a b => packR 28 2 d.val a.val b.val
  | .mzero d => packR 28 3 d.val 0 0
  | .acrd d n wide b => packR 28 4 d.val (n.val + 4 * wide.toNat) (encS b)
  | .acwr d n wide b => packR 28 5 d.val (n.val + 4 * wide.toNat) (encS b)
  | .tbw d n b => packR 28 6 d.val n.val (encS b)
  | .tbr d n b => packR 28 7 d.val n.val (encS b)
  | .mpert a b => packR 28 8 0 (encS a) (encS b)
  | .msync => packR 28 9 0 0 0
  | .seqgo a => packR 28 10 0 (encS a) 0
  | .vsel p d a b => packR 29 (p.val * 2) d.val a.val (encX b)
  | .vpmov p d b => packR 29 (p.val * 2 + 1) d.val 0 (encX b)
  | .uisend a b => packR 30 0 0 (encS a) (encS b)
  | .uisendw a b => packR 30 1 0 (encS a) (encS b)
  | .uiret => packR 30 2 0 0 0
  | .uiack d b => packR 30 3 (encS d) 0 (encS b)
  | .uipoll d => packR 30 4 (encS d) 0 0
  | .trapret => packR 31 0 0 0 0
  | .srdp d i => packR 31 1 (encS d) (i.index / 128) (i.index % 128)
  | .swrp i d => packR 31 2 (encS d) (i.index / 128) (i.index % 128)
  | .lsel a => packR 31 3 0 (encS a) 0
  | .lrdv d a => packR 31 4 (encS d) a.val 0
  | .lwrv d a => packR 31 5 (encS d) a.val 0
  | .lrdp d a => packR 31 6 (encS d) a.val 0
  | .lwrp d a => packR 31 7 (encS d) a.val 0
  | .tlbinv a b => packR 31 8 0 (encS a) (encS b)
  | .tlbsync => packR 31 9 0 0 0
  | .freplay => packR 31 10 0 0 0
  | .fdrop => packR 31 11 0 0 0
  | .halt a => packR 31 12 0 (encS a) 0
  | _ => 0

/-- The mode in which an instruction of the table is decoded first: supervisor mode for the PRIV major. -/
def decodeAny (w : Word) : Option Instr :=
  match decode .user w with
  | .ok i => some i
  | .error _ =>
    match decode .sup w with
    | .ok i => some i
    | .error _ => none

/-- The instruction whose bits are w, as the opcode table numbers them: every word of the N320 is one 32-bit word
(07 R172); the PRIV major decodes in supervisor mode (07 R176). -/
def decodeTableWord (nbits w : Nat) : Option Instr :=
  if nbits == 32 then decodeAny (BitVec.ofNat 32 w) else none

end Sys2Proof

end
end

