-- ==== Sys2Proof/Machine/State.lean ====
section
/-! DEFINITION. The state of one N320 package as plain data, its stops, and the state at reset. -/
namespace Sys2Proof.Machine

/-! ### Groups and streams -/

/-- A scalar register: 64 bits and a P bit (02 R47, 08 R206). -/
structure SVal where
  v : Dword
  p : Bool
deriving DecidableEq, Repr

/-- One lane of a vector register: 32 bits and a P bit (02 R45, 08 R206). -/
structure Lane where
  v : Word
  p : Bool
deriving DecidableEq, Repr

/-- A predicate register: 96 values and 96 P bits (02 R47, 10 R245). -/
structure PredReg where
  v : LaneMask
  p : LaneMask
deriving DecidableEq, Repr

/-- The condition code (06 R156). -/
structure CC where
  z : Bool
  n : Bool
  c : Bool
  v : Bool
  mz : Bool
  mf : Bool
  tmo : Bool
  nl : Bool
deriving DecidableEq, Repr

/-- A trap: code and detail (15 R336), TRAPADDR. -/
structure Trap where
  code : Nat
  detail : Nat
  addr : Dword
deriving DecidableEq, Repr

/-- What the lanes of an operand log entry do (11 R267). -/
inductive MemOp where
  | load (size : Nat) (h : Hint)
  | store (size : Nat) (h : Hint)
  | atom (op : AtomOp) (size : Nat)
  | spLoad (size : Nat)
  | spStore (size : Nat)
  | spAtom (op : AtomOp)
  /-- SWINIT and BARA, BARD are performed at issue; they take no entry -/
  | cflush | cinv | icinv
  | rput | rputf | rget
  | ratom (op : AtomOp)
deriving DecidableEq, Repr

/-- Where a load or an atomic writes: n registers of the allotment from an absolute number, or a scalar. -/
inductive Dst where
  | none
  | vec (base n : Nat)
  | scal (r : SReg) (banked : Bool)
deriving DecidableEq, Repr

/-- An operand log entry (11 R267): the instruction, its source operands, and per lane what has become of it. -/
structure LogEntry where
  id : Nat
  insn : Word
  pc : Dword
  op : MemOp
  dst : Dst
  /-- a uniform access, of one lane (03 R68) -/
  scalar : Bool
  /-- issued in supervisor mode (03 R81) -/
  sup : Bool
  active : LaneMask
  performed : LaneMask
  /-- sent and not yet answered -/
  flight : LaneMask
  /-- faulted lanes, lowest first -/
  faults : List (Nat × Trap)
  /-- lanes held in the replay buffer for RETRY-MIGRATING (05 R145) -/
  moving : LaneMask
  /-- held externally after a fault record (15 R339) -/
  held : Bool
  addrs : List Dword
  data : List (BitVec 128)
  dataP : LaneMask
  /-- progress of a range operation: the next byte and the end (11 R281) -/
  next : Nat
  stop : Nat
  /-- the write-backs that a range operation has started, by the number of their request (11 R282) -/
  wbs : List Nat
  /-- the descriptor and the remote window entry of RPUT to RATOM, as checked at issue (11 R286) -/
  desc : Dword
  win : List Dword
deriving DecidableEq, Repr

/-- The scope of a release or an acquire (03 R76). -/
inductive Scope where
  | core | pkg | span
deriving DecidableEq, Repr

/-- Why a group or a stream waits: the rows of 14 R329 with the wake condition of each, and the fence (11 R279). -/
inductive Wait where
  | none
  | yield
  /-- the pairs, ALL, the remaining timeout, the tick of the last evaluation -/
  | wait (pairs : List (Dword × Dword)) (all : Bool) (left : Nat) (last : Nat)
  /-- scratch address and the generation before the arrival -/
  | bara (addr : Dword) (gen : BitVec 16) (sc : Scope)
  | watermark (member w : Nat)
  | replay
  | fence (sc : Scope)
  | engine (core : Nat)
  | seqgo (core : Nat)
  | launch
  | streamTable (win : Nat)
  | sendw (id : Nat)
deriving DecidableEq, Repr

/-- A resident group, or a stream with its sequencer. -/
structure Thread where
  uid : Nat
  /-- a keystone sequencer stream (06 R158); otherwise a group -/
  stream : Bool
  /-- a cluster stream on the anchor core, as against a local stream (06 R159) -/
  cluster : Bool
  team : Nat
  gid : Nat
  core : Nat
  pc : Dword
  mode : Mode
  sregs : List SVal
  banked : List SVal
  vregs : List (List Lane)
  allot : Nat
  wbase : Nat
  preds : List PredReg
  launched : LaneMask
  live : LaneMask
  cc : CC
  rm : BitVec 2
  sig : Word
  savedSig : Word
  lct : Nat
  mfw : Dword
  mpert : Option (Dword × Dword)
  trapcode : Dword
  trappc : Dword
  trapaddr : Dword
  trapmask : List Word
  trapnpc : Dword
  trapLog : Bool
  trapDrop : Bool
  fltpend : LaneMask
  fltinsn : Word
  lselv : Nat
  /-- the log entry whose fault was trapped -/
  trapEntry : Nat
  log : List LogEntry
  nextEntry : Nat
  /-- the word fetched and its address; FETCHB and jumps discard it (03 R90, 09 R241) -/
  fetched : Option (Dword × Word)
  /-- a fetch under way, translated and waiting for its line: the PC, the physical address, in a non-coherent window, CEN
  (01 R38) -/
  fetching : Option (Dword × Nat × Bool × Bool)
  wait : Wait
  /-- the handler has been entered and its acquire, at SPAN scope or not, is not complete (13 R316, R318) -/
  acq : Option Bool
  /-- invalidations sent by TLBINV and not yet acknowledged (15 R348) -/
  invs : List Nat
  active : Bool
  /-- the ticks of 14 R326 to R328: resident since, active since, last issue if it has issued, ready since -/
  resident : Nat
  activeAt : Nat
  issuedAt : Option Nat
  readyAt : Nat
  /-- the oldest entry of its log, where the replay buffer held it when the thread was last looked at (14 R326) -/
  heldAt : Option Nat
  /-- MODEL: nothing has happened since this thread last failed to go on (log 2) -/
  stall : Bool
  /-- MODEL: it could not go on when it was last looked at (log 2) -/
  idle : Bool
  /-- the thread is removed at its next boundary: its grid was ended (15 R340, 14 R330) -/
  ending : Bool
deriving DecidableEq, Repr

/-! ### The matrix engine -/

/-- A matrix operation in an engine's queue (12 R300): which MMA (or MZERO), its word, buffers and perturbation. -/
structure MatOp where
  id : Nat
  uid : Nat
  zero : Bool
  f : Dword
  d : Nat
  a : Nat
  b : Nat
  /-- element and value of an armed MPERT that names this engine (12 R304) -/
  pert : Option (Nat × Dword)
  /-- context entry that counts its events, and KENTRY of its grid -/
  slot : Nat
  kentry : Dword
deriving DecidableEq, Repr

/-- A core's matrix engine (12 R294, R295). Bytes of tb0 to tb7 at 0x4400 each, of ac0 to ac3 at 0x4000 each. -/
structure Engine where
  holder : Option Nat
  tiles : List Host.Cell
  tileP : BitVec 34816
  acc : List Host.Cell
  accP : BitVec 16384
  queue : List MatOp
deriving DecidableEq, Repr

/-! ### Teams, clusters, grids -/

/-- A watermark register (04 R103). -/
structure Watermark where
  seql : Word
  cause : Byte
  tb : BitVec 3
  space : BitVec 2
  /-- 0 IDLE, 1 LANDING, 2 FROZEN, 3 DONE, 4 ABORTED -/
  state : BitVec 3
  lo : Nat
  hi : Nat
  mark : Nat
  /-- MODEL: code bytes of a block format in a tile buffer, whose scale slots it holds too; else 0 (04 R102) -/
  codes : Nat
deriving DecidableEq, Repr

/-- A generation of a team's activation table (10 R256). -/
structure ActTable where
  xlo : Word
  xscale : Word
  p : Bool
  coef : List Lane
deriving DecidableEq, Repr

/-- A resident team (06 R151). -/
structure Team where
  id : Nat
  grid : Nat
  cluster : Nat
  member : Nat
  core : Nat
  /-- team slot on its core, 0 to 3 (13 R308) -/
  slot : Nat
  /-- scratchpad run: first 4 KiB block and length in blocks (02 R48) -/
  runAt : Nat
  runLen : Nat
  scratch : List Host.Cell
  marks : List Watermark
  act : ActTable
  pinEnd : Option Nat
  lastPinEnd : Option Nat
  /-- matrix state saved by eviction, until the team claims its core's engine again (12 R295) -/
  engine : Option Engine
  /-- counts as exited (04 R113) -/
  exited : Bool
deriving DecidableEq, Repr

/-- A resident cluster (06 R151). -/
structure Cluster where
  id : Nat
  grid : Nat
  index : Nat
  /-- core and team of each member, in member order -/
  members : List (Nat × Nat)
  /-- eviction was asked for (14 R330) -/
  evicting : Bool
deriving DecidableEq, Repr

/-- A launch record, read once (06 R161), with the fields the device uses of its completion block (06 R163). -/
structure LaunchRec where
  kentry : Dword
  sentry : Dword
  gpt : Nat
  ch : Nat
  cw : Nat
  gx : Nat
  gy : Nat
  gz : Nat
  ciq : Bool
  cts : Bool
  csw : Bool
  naft : Nat
  lr : Bool
  prio : Nat
  eclass : Nat
  scrb : Nat
  regs : Nat
  lastl : Nat
  ltbase : Dword
  param : Dword
  aftb : Dword
  cblk : Dword
  swaddr : Dword
  tsaddr : Dword
  tsval : Dword
  uiv : Nat
  uidata : Word
deriving DecidableEq, Repr

/-- An after condition (06 R162): kind, address, awaited generation, satisfied. -/
structure AfterCond where
  kind : Nat
  addr : Dword
  genv : BitVec 16
  sat : Bool
deriving DecidableEq, Repr

/-- Where a grid stands (06 R169 to R171): waiting for conditions, dispatched, complete and in its completion actions,
finished. -/
inductive GridStage where
  | waiting | running | fence | status | sync | stamp | interrupt | done
deriving DecidableEq, Repr

/-- How a put, a flag or a send ended (11 R280, 05 R136): refused at its destination, timed out, its endpoint's cell lost. -/
inductive EndKind where
  | refused | timedOut | lost
deriving DecidableEq, Repr
/-- An outcome of a put, a flag or a send that a FENCE.SPAN reports (11 R280), with its TRAPADDR. -/
structure PendOutcome where
  kind : EndKind
  addr : Dword
deriving DecidableEq, Repr

structure Grid where
  id : Nat
  /-- package context entry -/
  slot : Nat
  lrec : Dword
  r : LaunchRec
  /-- started through a launch port (06 R165) -/
  port : Bool
  /-- compute die preferred under 06 R146 -/
  die : Option Nat
  after : List AfterCond
  stage : GridStage
  /-- clusters placed so far, in linear order (06 R152) -/
  placed : Nat
  err : Bool
  ecode : BitVec 16
  outcomes : List PendOutcome
  /-- the graph and node it stands for (17 R373) -/
  node : Option (Nat × Nat)
  /-- groups that it was ended under, some of whose accesses may be open (15 R340, 06 R171) -/
  left : List Nat
  /-- the value of its sync word for which its arrival there has been sent (06 R171) -/
  sync : Option Nat
deriving DecidableEq, Repr

/-- A graph binary (17 R373). A node's state: 0 waiting, 1 launched, 2 complete, 3 complete with ERR. -/
structure Graph where
  id : Nat
  slot : Nat
  root : Dword
  cblk : Dword
  edges : List (Nat × Nat)
  nodes : List Nat
deriving DecidableEq, Repr

/-- A placement request (14 R323): an unplaced cluster of a grid, or a saved cluster to restore. -/
structure PlaceReq where
  entry : Nat
  restore : Bool
  /-- the grid, or the saved cluster -/
  target : Nat
  index : Nat
  prio : Nat
  at_ : Nat
deriving DecidableEq, Repr

/-! ### Contexts -/

/-- The state of a package context entry (15 R352). -/
inductive CtxStatus where
  | unknown | parked | loaded
deriving DecidableEq, Repr

/-- The user interrupt registers (13 R308). -/
structure UiRegs where
  pend : Dword
  mask : Dword
  /-- MODEL: pending vectors whose sends ask for an acquire at SPAN scope (13 R318) -/
  wide : Dword
  /-- the handler group: its thread, with CORE, GROUP, TEAM -/
  hg : Option Nat
  core : Nat
  group : Nat
  team : Nat
  inh : Bool
  vec : Dword
  pc : Dword
  savm : List Word
  den : Bool
  drops : BitVec 16
  cnt : List (BitVec 16)
  data : List Word
  rule : List Byte
deriving DecidableEq, Repr

/-- The exception counters (08 R210). -/
structure FxRegs where
  cnt : List Word
  ctl : Dword
  stat : Dword
  kent : Dword
  /-- MODEL: the tick at which FXKENT was last set, and the CROSS bit that set it (08 R210) -/
  kentAt : Option (Nat × Nat)
deriving DecidableEq, Repr

/-- An entry of a stream table (05 R149), with the puts it waits for (20 R395). -/
structure StreamEnt where
  dspan : Nat
  dpkg : Nat
  dctx : Nat
  epoch : BitVec 8
  counts : List Nat
  /-- requests counted and not acknowledged -/
  open_ : Nat
  /-- RPUTFs, and sends that are counted as one, from the oldest that is not acknowledged on: number, acknowledged -/
  flags : List (Nat × Bool)
  /-- the close in progress (05 R150) -/
  closing : Option Nat
deriving DecidableEq, Repr

/-- Where a store to a launch port came from, and who hears that it is performed (06 R166): nobody, the endpoint of a request, or a
write that waits at a slice here. -/
inductive PortFrom where
  | none
  | req (ep id : Nat)
  | write (id : Nat)
deriving DecidableEq, Repr
/-- A store that has come to a launch port: the storing endpoint and the value. -/
structure PortStore where
  ep : Nat
  w : Dword
  from_ : PortFrom
deriving DecidableEq, Repr

/-- Who presents an arrival, and hears what became of it (13 R313). -/
inductive UiFrom where
  | port
  /-- a store to UIPORT that is no arrival, and counts as refused (13 R313) -/
  | bad
  /-- a copy or a completion of a context entry and a grid -/
  | kernel (slot grid : Nat)
  /-- a message: its sender, and the number of its answer -/
  | msg (src : StreamId) (ep id : Nat)
  /-- a group of a grid and context entry; a UISENDW waits for the answer to a request -/
  | send (uid grid slot : Nat) (wait : Option Nat)
deriving DecidableEq, Repr

/-- An arrival at a context: class and identity of its sender, vector, data (13 R313); a SPAN acquire is asked for (13 R318). -/
structure UiArr where
  cls : Nat
  ident : Nat
  vec : Nat
  data : Word
  wide : Bool
  from_ : UiFrom
deriving DecidableEq, Repr

/-- A package context entry (15 R352, R354). -/
structure Ctx where
  status : CtxStatus
  /-- PA[51:12] of the block, as a byte address -/
  block : Nat
  num : Nat
  /-- lease length in ticks (03 R67) -/
  lease : Nat
  timeout : Nat
  key : Word
  l3 : List Dword
  ltbase : Dword
  rwtbase : Dword
  tollbase : Dword
  trapvec : Dword
  extmask : Word
  fqbase : Dword
  fqlog : Nat
  /-- FQHEAD as read at LOAD and moved since (15 R354) -/
  fqhead : Nat
  poolbase : Dword
  poolcnt : Nat
  ncw : List Dword
  ui : UiRegs
  fx : FxRegs
  /-- copy sequence number of each core (04 R98) -/
  cpyseq : List Dword
  /-- save pool allocation map (15 R354) -/
  pool : BitVec 1024
  /-- launch port requests, oldest first (06 R166), with the storing endpoint's admission done -/
  lport : List Dword
  /-- the oldest request of the launch port has been refused, and its status is being written: the fault and the completion block (06
  R163, R166) -/
  refusing : Option (Trap × Dword)
  /-- stores to the launch port that have come and are still to be performed, with their toll check, oldest first -/
  ports : List PortStore
  /-- groups whose LAUNCH waits for acceptance, in the order in which their releases completed (09 R237) -/
  launches : List Nat
  /-- the toll cache: entry number and its two words -/
  toll : List (Nat × Dword × Dword)
  streams : List StreamEnt
  /-- a wake request of a parked context (13 R315, 21 R400) -/
  wake : Bool
  /-- fault records that wait for space, oldest first: the four words and the grid (15 R350) -/
  fqwait : List (List Dword × Nat)
  /-- the PDENY indication: the first refused line (05 R132) -/
  pdeny : Option Nat
  /-- outcomes of requests whose grid is gone (11 R280) -/
  outcomes : List PendOutcome
  /-- arrivals that have reached the package and are still to be judged, the first to come first (13 R314) -/
  arrivals : List UiArr
  /-- PARK is in progress, and what goes to the block is still to be taken (08 R210, 15 R352) -/
  parking : Bool
deriving DecidableEq, Repr

/-! ### Cores -/

/-- A line of an L1 (02 R53). -/
structure L1Line where
  line : Nat
  /-- untracked copy of a context (01 R31) -/
  unt : Option Nat
  data : LineData
  exp : Nat
  psn : Bool
deriving DecidableEq, Repr

/-- A store's lanes in a store buffer entry: the group, its log entry, the lanes. -/
structure Contrib where
  uid : Nat
  entry : Nat
  lanes : LaneMask
deriving DecidableEq, Repr

/-- An entry of a core store buffer (02 R55), or an atomic's own entry (11 R274). -/
structure SbEntry where
  id : Nat
  line : Nat
  /-- package context entry; the line lies in a non-coherent window (01 R31) -/
  slot : Nat
  nc : Bool
  cen : Bool
  /-- virtual address of the line, for a fresh translation -/
  va : Nat
  data : LineData
  mask : LineMask
  /-- poison flag (02 R57) -/
  psn : Bool
  /-- a store with the hint .NL entered it: a line that misses in the package L2 is filled as the next victim (11 R271) -/
  last : Bool
  atom : Option AtomReq
  opened : Nat
  sent : Bool
  from_ : List Contrib
  /-- the page whose move holds it (05 R145), and: its page has moved, and it is to be translated afresh -/
  onMove : Option Nat
  again : Bool
  /-- a lane of a store that has faulted, or that waits for an older one that has: handed to the replay buffer, it holds no place of
  the buffer and is not sent, but its bytes stay visible until the lane is sent again or dropped (02 R56, R57, 03 R70) -/
  handed : Bool
  /-- context entries and virtual lines of the stores that joined it by another translation than `va` (01 R38) -/
  also : List (Nat × Nat)
deriving DecidableEq, Repr

/-- A translation (01 R23, R34). -/
structure TlbEnt where
  /-- virtual base and size of the page -/
  va : Nat
  size : Nat
  slot : Nat
  pa : Nat
  w : Bool
  x : Bool
  u : Bool
  cen : Bool
  host : Bool
deriving DecidableEq, Repr

/-- A request of an L1 miss, .NL load or copy source read that the package L2 has still to answer (02 R53). -/
structure LoadReq where
  uid : Nat
  entry : Nat
  lane : Nat
  /-- the virtual address, for invalidations (01 R38) -/
  va : Nat
  line : Nat
  slot : Nat
  nc : Bool
  cen : Bool
  h : Hint
  /-- the tick from which it is served: that of its arrival at the slice, later behind an ECC retry (02 R59, 16 R357) -/
  at_ : Nat
deriving DecidableEq, Repr

/-- The in-field test of a core (14 R335): draining since a tick, or in test since a tick. -/
inductive TestState where
  | none | draining (since : Nat) | testing (since : Nat)
deriving DecidableEq, Repr

/-- A line that a PREF has still to fetch: its translation, or a way for it, was not at hand (11 R283). -/
structure Pref where
  slot : Nat
  va : Nat
  sup : Bool
deriving DecidableEq, Repr

structure Core where
  l1 : List L1Line
  sb : List SbEntry
  loads : List LoadReq
  icache : List (Nat × LineData)
  /-- the memory-pipe TLB of 64 entries, the instruction TLB of 16, the copy-engine TLB of 32, and the second level of 2,048
  in sets of 8; the newest entry first (01 R34) -/
  tlb : List TlbEnt
  itlb : List TlbEnt
  ctlb : List TlbEnt
  tlb2 : List TlbEnt
  prefs : List Pref
  /-- the prefetch requests of this core that are out, by number (11 R268) -/
  prfs : List Nat
  /-- remote window cache: context entry, window, its four words (01 R21) -/
  rwc : List (Nat × Nat × List Dword)
  /-- context entries in core context slots 0 to 3 (01 R35) -/
  slots : List (Option Nat)
  engine : Engine
  /-- groups that wait at SEQGO, in arrival order (06 R159) -/
  seqwait : List Nat
  test : TestState
deriving DecidableEq, Repr

/-! ### Copies -/

/-- A layout record (04 R91). -/
structure Layout where
  base : Nat
  space : Nat
  fmt : Nat
  ndim : Nat
  swz : Nat
  tb : Nat
  extent : List Nat
  stride : List Nat
deriving DecidableEq, Repr

/-- The state of a copy beside its watermark: landing, its stamp, its stamp written, finished. -/
inductive CopyStage where
  | landing | stamping | stamped | finished
deriving DecidableEq, Repr

/-- What a copy writes into one 128-byte line: the line of its space, where that is translated to, and the bytes; with them
the scale bytes that land in a tile buffer (04 R101, R102). -/
structure CopyLine where
  line : Nat
  pa : Nat
  nc : Bool
  cen : Bool
  data : LineData
  mask : LineMask
  psn : Bool
  scales : List (Nat × Nat)
deriving DecidableEq, Repr

/-- Events of one result (08 R209), or counts of them: NAN, INF, OVF, UNF. -/
structure Ev where
  nan : Nat
  inf : Nat
  ovf : Nat
  unf : Nat
deriving DecidableEq, Repr

structure Copy where
  id : Nat
  team : Nat
  core : Nat
  grid : Nat
  slot : Nat
  ctl : Dword
  ext : List Dword
  srcO : List Nat
  dstO : List Nat
  src : Layout
  dst : Layout
  seq : Dword
  /-- members it lands in: member, units landed there, skipped (04 R111) -/
  into : List (Nat × Nat × Bool)
  /-- the write that is sent, of a line or of the stamp: the unit after the last that it completes, and 1 -/
  sent : List (Nat × Nat)
  /-- source reads under way, translated and waiting for their line: the line's virtual address, its physical address, in a
  non-coherent window, CEN (01 R38, R40) -/
  reading : List (Nat × Nat × Bool × Bool)
  /-- the rest of a unit that crosses a line, its first part being written: it lands with the units that start in its line
  (03 R85, 04 R101) -/
  carry : List CopyLine
  /-- the conversion events of the units that the write sent completes, and those of the unit whose rest is carried: they count when
  their units land (08 R209) -/
  sentEv : Ev
  carryEv : Ev
  next : Nat
  stage : CopyStage
  frozen : Option Byte
  /-- the page whose move froze it (05 R145) -/
  onMove : Option Nat
  /-- the address of the fault that froze it, for its record (15 R350); none where the record's ADDR is MARK (log 90) -/
  faultAddr : Option Dword
  aborting : Option Byte
  /-- it holds a slot of the core (04 R121) -/
  hasSlot : Bool
  /-- reported to the fault queue and held (15 R350) -/
  reported : Bool
deriving DecidableEq, Repr

/-! ### The package -/

/-- The state of a line in the package L2 (02 R58, 05 R126). -/
inductive L2St where
  | clean | dirty | m | o | e | s
deriving DecidableEq, Repr

/-- A line of the package L2 (02 R58). -/
structure L2Line where
  line : Nat
  st : L2St
  /-- held untracked for a context entry, with its dirty mask (01 R31) -/
  unt : Option (Nat × LineMask)
  exp : Nat
  psn : Bool
  data : LineData
  /-- tick at which the copy came, or M or E was gained (03 R83) -/
  gained : Nat
  /-- tick after the last read or write performed here (02 R59, 03 R69: one write a tick) -/
  wrote : Nat
deriving DecidableEq, Repr

/-- Who wrote: what is told when a waiting write is performed or refused. -/
inductive Writer where
  /-- a store buffer entry -/
  | sb (core id : Nat)
  | copy (id unit : Nat)
  /-- an access of the device itself -/
  | device (tag : Nat)
  /-- a remote put, flag or atomic performed for another span: the request -/
  | remote (tag : Nat)
  | none
deriving DecidableEq, Repr

/-- A write that waits at a slice (02 R59). -/
structure L2Write where
  id : Nat
  line : Nat
  slot : Nat
  nc : Bool
  cen : Bool
  data : LineData
  mask : LineMask
  psn : Bool
  atom : Option AtomReq
  arrived : Nat
  who : Writer
  /-- virtual address of the line, for invalidations (01 R38) -/
  va : Nat
  /-- its line is filled as the next victim (11 R271) -/
  last : Bool
  /-- sent as a request to the home, or a recall is outstanding for it -/
  asked : Bool
  /-- always performed far, at the home (03 R88) -/
  far : Bool
deriving DecidableEq, Repr

/-- The kinds of request to a home (05 R127), and the home's own local ones (05 R129). -/
inductive HomeKind where
  | rds | rdx | upg | wrf | atf | ntr | prf | wbk | localLoad | localWrite | sweep | dead (cell : Nat) | unread
deriving DecidableEq, Repr

/-- A request that the home is answering, or that waits in the base die's queue behind one (05 R128). -/
structure HomeTxn where
  id : Nat
  kind : HomeKind
  req : HomeReq
  /-- recalls outstanding: endpoint -/
  wait : List Nat
  /-- its recalls have been sent -/
  begun : Bool
  /-- the directory acts of its recalls are INV, DOWN, COPY or DWB -/
  rkind : Nat
  dirty : Option LineData
  dirtyPsn : Bool
  /-- cells that answered with KEPT = 1 -/
  kept : List Nat
  /-- cancelled, or its cell died (05 R135, R139) -/
  dropped : Bool
  /-- MODEL: a local load is served: the line stays busy until this tick, so that what asked for it reads it (log 2) -/
  busyTo : Nat
  /-- a local write may be performed: the line stays busy for this write (05 R129, R130) -/
  write : Option Nat
  /-- the page's class did not admit the cell when the request arrived (05 R132, R133) -/
  denied : Bool
  /-- the tick at which it arrived (16 R357) -/
  arrived : Nat
  /-- a cell that was DEAD when the recalls went out, or died before it answered, could have owned the line (05 R141) -/
  lostOwner : Bool
deriving DecidableEq, Repr

/-- What a request that left the package is for (05 R134): its timer's subject. -/
inductive ReqFor where
  /-- a line the L2 asked a home for -/
  | line (slot : Nat) (nc : Bool)
  /-- a write or atomic performed far: the waiting write -/
  | write (id : Nat)
  /-- an untracked write-back of a context entry -/
  | untracked (slot : Nat)
  | writeback
  /-- a put or flag of a stream: thread, grid, context entry, window and offset, flag?, destination -/
  | put (uid grid slot : Nat) (addr : Dword) (flag : Bool) (dspan dpkg dctx : Nat)
  /-- lanes of an RGET or RATOM: thread, entry, lanes -/
  | lanes (uid entry : Nat) (lanes : LaneMask)
  /-- a UISEND: thread, grid, context entry, descriptor, kind 2 destination -/
  | send (uid grid slot : Nat) (desc : Dword) (dst : Option (Nat × Nat × Nat))
  /-- a UISENDW: thread, context entry, descriptor, kind 2 destination -/
  | sendw (uid slot : Nat) (desc : Dword) (dst : Option (Nat × Nat × Nat))
  /-- writes that a move holds, answered RETRY-MIGRATING (05 R145) -/
  | held (ws : List L2Write)
  /-- a close, and the path it took (05 R150) -/
  | close (slot dspan dpkg dctx : Nat) (epoch : BitVec 8) (path : Nat)
deriving DecidableEq, Repr

/-- A request outstanding beyond the package (05 R134). -/
structure OutReq where
  id : Nat
  ep : Nat
  kind : HomeKind
  line : Nat
  /-- the tick at which its timer expires -/
  due : Nat
  for_ : ReqFor
  /-- the request as sent, for RETRY (05 R128) -/
  req : HomeReq
  /-- answered RETRY-MIGRATING and held (05 R145) -/
  held : Bool
  /-- its timer has expired; kept only to know a late answer (05 R135) -/
  ended : Bool
  /-- an untracked write-back that leaves when this package's tracked copy of the line is gone (01 R32, 05 R129) -/
  waits : Bool
deriving DecidableEq, Repr

/-- A recall that waits for its lease or for writes (02 R60, 05 R130). -/
structure PendRecall where
  r : Recall
  /-- 0 INV, 1 DOWN, 2 COPY, 3 DWB -/
  kind : Nat
  /-- the tick at which it arrived -/
  at_ : Nat
deriving DecidableEq, Repr

/-- A walk in progress (01 R26, R37). -/
structure Walk where
  id : Nat
  core : Nat
  slot : Nat
  /-- VA[56:16] of the page -/
  va : Nat
  began : Nat
  /-- an invalidation has met it: it is discarded when it ends, and begins again (01 R37) -/
  restart : Bool
  /-- a walk of the copy engine or of the device: its reader comes back for what it finds -/
  dev : Bool
  /-- the line of the page table that it waits for (01 R38) -/
  line : Option Nat
deriving DecidableEq, Repr

/-- An invalidation not yet acknowledged, and the accesses under way when it arrived that it waits for (01 R38). -/
structure Inval where
  id : Nat
  m : InvMsg
  /-- store buffer entries, loads, waiting writes, walks -/
  sbs : List Nat
  loads : List LoadReq
  writes : List Nat
  walks : List Nat
  /-- threads with a fetch under way; copies with a line that they read, or that the rest of a unit has still to be written
  to: the line's virtual number -/
  fetches : List Nat
  reads : List (Nat × Nat)
  /-- reads of records, windows and tables: context entry, virtual address, line -/
  devs : List (Nat × Nat × Nat)
deriving DecidableEq, Repr

/-- A page move (05 R145): from, to, the PTE, its context and address, the step. -/
structure Move where
  page : Nat
  new : Nat
  pteAt : Nat
  pte : Dword
  ctx : Nat
  va : Nat
  step : Nat
  acks : List Nat
  /-- endpoints whose requests were answered RETRY-MIGRATING -/
  waiters : List Nat
deriving DecidableEq, Repr

/-- The destination side of a remote stream (05 R150): performed puts of an epoch on each path. -/
structure DestEpoch where
  src : StreamId
  dctx : Nat
  epoch : BitVec 8
  counts : List Nat
deriving DecidableEq, Repr

/-- A remote request being performed here as a requester of this cell (05 R148). -/
inductive RemoteJob where
  | put (m : PutMsg)
  | flag (m : FlagMsg)
  | get (m : GetMsg)
  | atom (m : RAtomMsg)
  | arrival (a : Arrival)
deriving DecidableEq, Repr

/-- An access to another member's scratchpad on its way (01 R15). -/
structure ScratchMsg where
  id : Nat
  uid : Nat
  entry : Nat
  lane : Nat
  team : Nat
deriving DecidableEq, Repr

/-- A cluster saved by eviction (14 R331, 15 R355): its teams with their engines, its groups, streams and copies as
saved, and the save pool slots that hold their images. -/
structure SavedCluster where
  id : Nat
  cluster : Cluster
  teams : List Team
  threads : List Thread
  copies : List Copy
  /-- the save pool slot of each team that has not exited -/
  slots : List (Nat × Nat)
  queued : Bool
  /-- the numbers of the image's writes: from the first, below the second (log 34) -/
  writes : Nat × Nat
  /-- one of them has faulted: the cluster stays resident (15 R355) -/
  failed : Bool
  /-- its image stands in memory, and it takes up its cores no longer -/
  off : Bool
  /-- its image is still to be written, while an engine completes its operations: by team, the places of its slot's pages (12 R295) -/
  todo : List (Nat × List (Nat × Bool))
deriving DecidableEq, Repr

/-- What the package says to the outside (log 1). -/
inductive OutMsg where
  | home (ep : Nat) (kind : HomeKind) (r : HomeReq)
  /-- span and endpoint of the request that it ends -/
  | cancel (span ep id : Nat)
  | recall (ep kind : Nat) (r : Recall)
  | recallAns (ep : Nat) (a : RecallAns)
  | homeAns (ep : Nat) (a : HomeAns)
  | retry (ep id : Nat)
  | retryMigrating (ep id : Nat)
  | migrationDone (ep page : Nat)
  /-- the lines of a page that moves, each with its PSN, and its class (05 R145 step 3) -/
  | pageWrite (ep page : Nat) (lines : List (LineData × Bool)) (pclass : Nat)
  /-- a page that was not taken goes back to its free ring (05 R145) -/
  | pageBack (ep page : Nat)
  /-- the page of this package's free ring that another package asked for, or none (05 R144) -/
  | pageGive (ep : Nat) (page : Option Nat)
  | put (span pkg : Nat) (m : PutMsg)
  | flag (span pkg : Nat) (m : FlagMsg)
  | get (span pkg : Nat) (m : GetMsg)
  | ratom (span pkg : Nat) (m : RAtomMsg)
  | remoteAck (s : StreamId) (id : Nat) (ok : Bool)
  | remoteAns (s : StreamId) (a : RemoteAns)
  | close (span pkg dctx : Nat) (epoch : BitVec 8) (id path : Nat)
  | closeAck (s : StreamId) (id : Nat)
  | arrival (span ep : Nat) (a : Arrival)
  | sendAns (s : StreamId) (ep id : Nat) (recorded : Bool)
  /-- a heartbeat over a Viaduct link (05 R137) -/
  | heartbeat (port : Nat)
  | suspect (ep cell : Nat) (suspect : Bool)
  | death (cell : Nat) (inc : BitVec 16)
  | inval (ep : Nat) (m : InvMsg)
  | invalAck (ep id : Nat)
  /-- a context event (17 R367): the MSI-X vector or the endpoint of flits, entry, and for a supervisor fault its detail
  and TRAPADDR (15 R342) -/
  | contextEvent (pcie : Bool) (dest entry : Nat) (detail : Nat) (addr : Dword)
  | managementEvent (pcie : Bool) (dest : Nat) (kind : Nat)
  | registerAnswer (reader : Nat) (w : Dword)
  | resend (port : Nat)
  /-- to the management controller: recovery for a cell is done (05 R140) -/
  | recovered (cell : Nat)
  | report (core : Nat)
deriving DecidableEq, Repr

/-- A page table pointer entry held by a die walk cache (01 R34). -/
structure WalkEnt where
  die : Nat
  slot : Nat
  level : Nat
  /-- the virtual address bits that reach the entry -/
  va : Nat
  pte : Dword
deriving DecidableEq, Repr

/-- A two-bit predictor counter of a slice (03 R83). -/
structure Predict where
  slice : Nat
  index : Nat
  n : BitVec 2
deriving DecidableEq, Repr

/-- A RAS event (16 R358). -/
structure RasEvent where
  w0 : Dword
  w1 : Dword
deriving DecidableEq, Repr

/-- What a monitor or a package knows of a cell's heartbeats (05 R124, R137): the tick of the last one, and per reporting
endpoint the tick since which it holds the cell SUSPECT. -/
structure Suspicion where
  cell : Nat
  ep : Nat
  since : Nat
deriving DecidableEq, Repr

/-- The machine: one N320 package. -/
structure State where
  /-- MODEL: the thread that is checked out for issue; its place in `threads` is empty meanwhile (log 2) -/
  cur : Thread
  /-- MODEL: whether `cur` is a thread of the machine -/
  out : Bool
  /-- MODEL: the instruction word that is issuing (03 R90, 09 R241) -/
  iw : Word
  now : Nat
  threads : List Thread
  teams : List Team
  clusters : List Cluster
  grids : List Grid
  graphs : List Graph
  queue : List PlaceReq
  /-- the tick from which the dispatch unit may place the next cluster: one in a tick (14 R324, R326) -/
  placeFrom : Nat
  saved : List SavedCluster
  ctxs : List Ctx
  cores : List Core
  copies : List Copy
  /-- Spaind memory, at the offsets of 01 R27 -/
  mem : List Host.Cell
  /-- line metadata words that are not zero (02 R63): line and word -/
  meta_ : List (Nat × Dword)
  /-- page records that are not zero (02 R64): page and word -/
  pages : List (Nat × Dword)
  /-- ownership region map bits that are set (02 R65): cell and region -/
  regions : List (Nat × Nat)
  /-- lines homed here that were read or written lately: line, and the tick from which it may be written again (02 R59, 03 R69) -/
  written : List (Nat × Nat)
  l2 : List L2Line
  l2w : List L2Write
  recalls : List PendRecall
  predict : List Predict
  home : List HomeTxn
  reqs : List OutReq
  /-- MODEL: reads of the walkers, of copies, of records and tables whose request has failed: line, tick and code (log 9) -/
  expired : List (Nat × Nat × Nat)
  /-- MODEL: writes of the device that waited at a slice and have been performed: the write, what an atomic returned, the tick; what
  wrote them has still to look (log 91) -/
  devDone : List (L2Write × SVal × Nat)
  walks : List Walk
  /-- reads of records, windows and tables that wait for a line: context entry, virtual address, line (01 R38) -/
  devReads : List (Nat × Nat × Nat)
  wcache : List WalkEnt
  invals : List Inval
  /-- invalidations that this package has sent to others and that are not acknowledged: number and endpoint (01 R36) -/
  invOut : List (Nat × Nat)
  moves : List Move
  epochs : List DestEpoch
  /-- remote requests being performed here: tag, request, 0 waiting, 1 done, 2 refused -/
  jobs : List (Nat × RemoteJob × Nat)
  scratchMsgs : List (ScratchMsg)
  spancfg : Dword
  celltab : List Dword
  cstate : List Dword
  ppmask : List Dword
  pgcmd : Dword
  migctl : Dword
  migbpt : Dword
  migfree : Dword
  migfht : Dword
  migrel : Dword
  migrht : Dword
  evcmd : Dword
  ctxcmd : Dword
  tlbiva : Dword
  /-- invalidations sent through TLBICMD and not acknowledged, and the loads that wait (17 R366) -/
  tlbiOpen : List Nat
  tlbiRead : List Nat
  rascnt : Dword
  raslog : List RasEvent
  rasovf : Bool
  ages : List Dword
  pwrctl : Dword
  evstat : Dword
  evdest : Dword
  meas : List (BitVec 256)
  attcmd : Dword
  attbuf : Dword
  /-- the report that is being written, and its physical address (17 R372) -/
  attrep : Option (Nat × Nat)
  /-- heartbeats: cell and the tick of the last (05 R124) -/
  beats : List (Nat × Nat)
  suspicions : List Suspicion
  isolated : Bool
  /-- Viaduct ports: link up, and its failures running (16 R359) -/
  links : List (Bool × Nat)
  /-- rows of the routing table (17 R364): destination (1,024 times its span plus its package), path, port; a path without a row
  uses the port that `Config.freePort` gives (log 3) -/
  routes : List (Nat × Nat × Nat)
  /-- MODEL: lines whose next read is uncorrectable (16 R357): line, whether the retry fails in data, in metadata -/
  ecc : List (Nat × Bool × Bool)
  /-- MODEL: lines whose next read is corrected (16 R357) -/
  eccFix : List Nat
  /-- lines busy with an ECC retry (16 R357) -/
  eccBusy : List Nat
  booted : Bool
  recovery : Bool
  /-- MODEL: events due, with the tick at which each is due, in the order in which they were asked for (log 2) -/
  agenda : List (Nat × Instr)
  /-- MODEL: messages out, newest first (log 1) -/
  outbox : List OutMsg
  /-- MODEL: next number for things that need one -/
  seq : Nat
  /-- MODEL: counter of free values (log 3) -/
  free : Nat
  /-- MODEL: next core and issue slot in the rota of issue (log 2) -/
  turn : Nat
deriving DecidableEq, Repr

/-! ### Stops -/

/-- Faults of the model: no rule of the spec stops the machine, every trap of the spec is a next state. -/
inductive Fault where
  /-- Raised by nobody: every instruction and every event has its effect or takes a trap of the spec (safe). -/
  | unreachable
deriving DecidableEq, Repr

/-- Refusals of the model. -/
inductive Refusal where
  /-- Raised by nobody: every instruction has its meaning; an arm without one would name its mnemonic here (safe). -/
  | notModelled (mnemonic : String)
deriving DecidableEq, Repr

/-! ### Reset -/

/-- CC at group start: MF is 1 (06 R156). -/
def CC.start : CC := ⟨false, false, false, false, false, true, false, false⟩
def SVal.zero : SVal := ⟨0, false⟩
def Lane.zero : Lane := ⟨0, false⟩

/-- A thread with every register zero (02 R45, R47; 15 R341 for the trap registers, log 6). -/
def Thread.blank : Thread where
  uid := 0
  stream := false
  cluster := false
  team := 0
  gid := 0
  core := 0
  pc := 0
  mode := .user
  sregs := List.replicate 32 SVal.zero
  banked := List.replicate 16 SVal.zero
  vregs := []
  allot := 0
  wbase := 0
  preds := List.replicate 32 ⟨0, 0⟩
  launched := 0
  live := 0
  cc := CC.start
  rm := 0
  sig := 0xFFFFFFFF
  savedSig := 0
  lct := 0
  mfw := 0
  mpert := none
  trapcode := 0
  trappc := 0
  trapaddr := 0
  trapmask := [0, 0, 0]
  trapnpc := 0
  trapLog := false
  trapDrop := false
  fltpend := 0
  fltinsn := 0
  lselv := 0
  trapEntry := 0
  log := []
  nextEntry := 0
  fetched := none
  fetching := none
  wait := .none
  acq := none
  invs := []
  active := false
  resident := 0
  activeAt := 0
  issuedAt := none
  readyAt := 0
  heldAt := none
  stall := false
  idle := false
  ending := false

/-- A watermark register at team start: IDLE, all zero (04 R103). -/
def Watermark.idle : Watermark := ⟨0, 0, 0, 0, 0, 0, 0, 0, 0⟩
/-- The current generation at team start (10 R256). -/
def ActTable.zero : ActTable := ⟨0, 0, false, List.replicate 96 Lane.zero⟩
/-- A free matrix engine; its contents read zero when claimed (12 R295). -/
def Engine.free : Engine := ⟨none, [], 0, [], 0, []⟩
/-- A core with nothing resident. -/
def Core.blank : Core where
  l1 := []
  sb := []
  loads := []
  icache := []
  tlb := []
  itlb := []
  ctlb := []
  tlb2 := []
  prefs := []
  prfs := []
  rwc := []
  slots := [none, none, none, none]
  engine := Engine.free
  seqwait := []
  test := .none

def UiRegs.zero : UiRegs where
  pend := 0
  mask := 0
  wide := 0
  hg := none
  core := 0
  group := 0
  team := 0
  inh := false
  vec := 0
  pc := 0
  savm := [0, 0, 0]
  den := false
  drops := 0
  cnt := List.replicate 64 0
  data := List.replicate 64 0
  rule := List.replicate 64 0

def FxRegs.zero : FxRegs := ⟨List.replicate 24 0, 0, 0, 0, none⟩

/-- A package context entry that holds nothing (15 R352). -/
def Ctx.unknown : Ctx where
  status := .unknown
  block := 0
  num := 0
  lease := 4
  timeout := 10000
  key := 0
  l3 := [0, 0, 0, 0]
  ltbase := 0
  rwtbase := 0
  tollbase := 0
  trapvec := 0
  extmask := 0
  fqbase := 0
  fqlog := 4
  fqhead := 0
  poolbase := 0
  poolcnt := 0
  ncw := List.replicate 16 0
  ui := UiRegs.zero
  fx := FxRegs.zero
  cpyseq := List.replicate 320 0
  pool := 0
  lport := []
  refusing := none
  ports := []
  launches := []
  toll := []
  streams := []
  wake := false
  fqwait := []
  pdeny := none
  outcomes := []
  arrivals := []
  parking := false

/-- The machine at reset (17 R370): the boot ROM has not yet run, nothing is resident, every package register at the
reset value the spec gives, memory unwritten. Log 6 lists the registers for which the spec gives none. -/
def State.reset : State where
  cur := Thread.blank
  out := false
  iw := 0
  now := 0
  threads := []
  teams := []
  clusters := []
  grids := []
  graphs := []
  queue := []
  placeFrom := 0
  saved := []
  ctxs := List.replicate 64 Ctx.unknown
  cores := List.replicate 320 Core.blank
  copies := []
  mem := []
  meta_ := []
  pages := []
  regions := []
  written := []
  l2 := []
  l2w := []
  recalls := []
  predict := []
  home := []
  reqs := []
  expired := []
  devDone := []
  walks := []
  devReads := []
  wcache := []
  invals := []
  invOut := []
  moves := []
  epochs := []
  jobs := []
  scratchMsgs := []
  spancfg := 0
  -- SELF stands in the entry of the package itself (05 R123): endpoint 0 (log 6)
  celltab := 4 :: List.replicate 1023 0
  cstate := List.replicate 256 0
  ppmask := List.replicate 60 0xFFFFFFFFFFFFFFFF
  pgcmd := 0
  -- WINLOG 20, THRESH 256 (05 R142)
  migctl := 0x0000001401000000
  migbpt := 0
  migfree := 0
  migfht := 0
  migrel := 0
  migrht := 0
  evcmd := 0
  ctxcmd := 0
  tlbiva := 0
  tlbiOpen := []
  tlbiRead := []
  rascnt := 0
  raslog := []
  rasovf := false
  -- SLACK 0xFF, EOLH 0xFFFF_FFFF (16 R361)
  ages := List.replicate 6 0x00FF0000FFFFFFFF
  -- CAP 3,200, BUDGET 96 (17 R368)
  pwrctl := 0x00000C8000600000
  evstat := 0
  -- PCIE 1 (17 R367)
  evdest := 0x0000000000000400
  meas := List.replicate 8 0
  attcmd := 0
  attbuf := 0
  attrep := none
  beats := []
  suspicions := []
  isolated := false
  links := List.replicate 24 (true, 0)
  routes := []
  ecc := []
  eccFix := []
  eccBusy := []
  booted := false
  recovery := false
  agenda := []
  outbox := []
  seq := 1
  free := 0
  turn := 0

end Sys2Proof.Machine
end

