-- ==== Sys2Proof/Machine/Mem.lean ====
section
/-! DEFINITION. Byte memories in one canonical form (addresses rising, no zero byte listed), bit fields, lines. -/
namespace Sys2Proof.Machine

/-- A byte memory: Spaind, a scratchpad allocation, tile buffers, accumulators. An unlisted address reads 0
(01 R27, 03 R69 "the value the byte held when memory was initialised"; log 5). -/
abbrev Mem := List Host.Cell

/-- What an unlisted address reads as (log 5). -/
def Mem.unlisted : Byte := 0

/-- The byte at an address. -/
def Mem.get : Mem → Nat → Byte
  | [], _ => Mem.unlisted
  | (k, v) :: r, a => if k == a then v else if a < k then Mem.unlisted else Mem.get r a

/-- Write one byte; writing what an unlisted address reads as removes the entry. -/
def Mem.set : Mem → Nat → Byte → Mem
  | [], a, x => if x == Mem.unlisted then [] else [(a, x)]
  | (k, v) :: r, a, x =>
    if a < k then (if x == Mem.unlisted then (k, v) :: r else (a, x) :: (k, v) :: r)
    else if k == a then (if x == Mem.unlisted then r else (a, x) :: r)
    else (k, v) :: Mem.set r a x

/-- The canonical form: addresses strictly rising from a bound, no entry equal to what an unlisted address reads as. -/
def Mem.wfFrom : Nat → Mem → Bool
  | _, [] => true
  | b, (k, v) :: r => decide (b ≤ k) && v != Mem.unlisted && Mem.wfFrom (k + 1) r

def Mem.wf (m : Mem) : Bool := Mem.wfFrom 0 m

/-- The n bytes from a, little-endian (00 R4), as a number. -/
def Mem.load : Mem → Nat → Nat → Nat
  | [], _, _ => 0
  | (k, v) :: r, a, n =>
    if k < a then Mem.load r a n
    else if k < a + n then v.toNat * 256 ^ (k - a) + Mem.load r a n
    else 0

/-- Write the n low bytes of x from a, little-endian. -/
def Mem.store : Mem → Nat → Nat → Nat → Mem
  | m, _, 0, _ => m
  | m, a, n + 1, x => Mem.store (Mem.set m a (BitVec.ofNat 8 x)) (a + 1) n (x / 256)

/-- Write the bytes of x that a byte mask marks. -/
def Mem.storeMask : Mem → Nat → Nat → Nat → Nat → Mem
  | m, _, 0, _, _ => m
  | m, a, n + 1, x, k =>
    Mem.storeMask (if k % 2 == 1 then Mem.set m a (BitVec.ofNat 8 x) else m) (a + 1) n (x / 256) (k / 2)

/-- Write zero to n bytes from a. -/
def Mem.clear (m : Mem) (a n : Nat) : Mem := m.filter fun c => c.1 < a || a + n ≤ c.1

/-- The cells of [a, a + n), moved to start at b. -/
def Mem.slice (m : Mem) (a n b : Nat) : Mem :=
  (m.filter fun c => a ≤ c.1 && c.1 < a + n).map fun c => (c.1 - a + b, c.2)

/-- Replace the n bytes from a by the cells of another memory, which lie in that range. -/
def Mem.paste (m : Mem) (a n : Nat) (p : Mem) : Mem :=
  (m.filter fun c => c.1 < a) ++ (p.filter fun c => a ≤ c.1 && c.1 < a + n) ++ (m.filter fun c => a + n ≤ c.1)

/-! ### Bit fields -/

/-- Bits [lo + len - 1 : lo]. -/
def bits {w : Nat} (x : BitVec w) (lo len : Nat) : Nat := x.toNat / 2 ^ lo % 2 ^ len
/-- Bit i. -/
def bit {w : Nat} (x : BitVec w) (i : Nat) : Bool := x.getLsbD i
/-- x with bits [lo + len - 1 : lo] replaced by v. -/
def putBits {w : Nat} (x : BitVec w) (lo len v : Nat) : BitVec w :=
  let m : BitVec w := BitVec.ofNat w ((2 ^ len - 1) * 2 ^ lo)
  (x &&& ~~~m) ||| (BitVec.ofNat w (v % 2 ^ len * 2 ^ lo))
def putBit {w : Nat} (x : BitVec w) (i : Nat) (b : Bool) : BitVec w := putBits x i 1 b.toNat
/-- Sign extension of the low n bits of v, as an integer. -/
def sextInt (n v : Nat) : Int := if v % 2 ^ n < 2 ^ (n - 1) then Int.ofNat (v % 2 ^ n) else Int.ofNat (v % 2 ^ n) - 2 ^ n
/-- Sign extension of the low n bits of v to 64 bits. -/
def sext64 (n v : Nat) : Dword := BitVec.ofInt 64 (sextInt n v)

/-- n bytes at byte k of a line, as a number. -/
def lineGet (d : LineData) (k n : Nat) : Nat := d.toNat / 256 ^ k % 256 ^ n
/-- A line with the bytes of x that a mask marks. -/
def lineMerge (d x : LineData) (m : LineMask) : LineData :=
  let full : LineData := BitVec.ofNat 1024 ((List.range 128).foldl (fun a i => if m.getLsbD i then a + 255 * 256 ^ i else a) 0)
  (d &&& ~~~full) ||| (x &&& full)
/-- n bytes of v placed at byte k of a line. -/
def lineAt (k n v : Nat) : LineData := BitVec.ofNat 1024 (v % 256 ^ n * 256 ^ k)
/-- The mask of n bytes at byte k. -/
def maskAt (k n : Nat) : LineMask := BitVec.ofNat 128 ((2 ^ n - 1) * 2 ^ k)
/-- Every byte. -/
def fullMask : LineMask := BitVec.allOnes 128

/-- Replace the element at an index, if it is there. -/
def setAt {α : Type} : List α → Nat → α → List α
  | [], _, _ => []
  | _ :: r, 0, x => x :: r
  | y :: r, n + 1, x => y :: setAt r n x
/-- Apply a function to the element at an index. -/
def modAt {α : Type} : List α → Nat → (α → α) → List α
  | [], _, _ => []
  | y :: r, 0, f => f y :: r
  | y :: r, n + 1, f => y :: modAt r n f
/-- Map with the index, from a first index. -/
def mapFrom {α β : Type} (f : Nat → α → β) : Nat → List α → List β
  | _, [] => []
  | n, x :: r => f n x :: mapFrom f (n + 1) r
/-- The value of a key in a list of pairs, or 0. -/
def assoc {w : Nat} (l : List (Nat × BitVec w)) (k : Nat) : BitVec w :=
  match l with
  | [] => 0
  | (a, v) :: r => if a == k then v else assoc r k
/-- Set the value of a key; a zero value is not kept, and keys rise. -/
def assocSet {w : Nat} (l : List (Nat × BitVec w)) (k : Nat) (x : BitVec w) : List (Nat × BitVec w) :=
  match l with
  | [] => if x == 0 then [] else [(k, x)]
  | (a, v) :: r =>
    if k < a then (if x == 0 then l else (k, x) :: l)
    else if a == k then (if x == 0 then r else (k, x) :: r)
    else (a, v) :: assocSet r k x

end Sys2Proof.Machine
end

