-- ==== Sys2Proof/Machine/Flags.lean ====
section
/-! DEFINITION. The condition code (06 R156), branch conditions (07 R186), compare flags (09 R218), the active mask
(06 R155) and the signature (09 R242). -/
namespace Sys2Proof.Machine

/-- Z, N, C, V of A + NOT Y + 1 (09 R218); the other flags stay. -/
def CC.compare (c : CC) (a y : Dword) : CC :=
  let sum := a.toNat + (~~~y).toNat + 1
  let diff : Dword := BitVec.ofNat 64 sum
  { c with z := a == y, n := diff.msb, c := 2 ^ 64 ≤ sum, v := a.msb != y.msb && diff.msb != a.msb }

/-- Whether a condition holds (07 R186). -/
def CC.holds (c : CC) : Cond → Bool
  | .al => true
  | .eq => c.z
  | .ne => !c.z
  | .lt => c.n != c.v
  | .ge => c.n == c.v
  | .le => c.z || c.n != c.v
  | .gt => !c.z && c.n == c.v
  | .ltu => !c.c
  | .leu => !c.c || c.z
  | .geu => c.c
  | .gtu => c.c && !c.z
  | .mz => c.mz
  | .mnz => !c.mz
  | .mf => c.mf
  | .mnf => !c.mf
  | .tmo => c.tmo
  | .ntmo => !c.tmo
  | .nl => c.nl
  | .nnl => !c.nl

/-- The word that SRD reads as CCR (09 R240). -/
def CC.word (c : CC) : Dword :=
  BitVec.ofNat 64 (c.z.toNat + 2 * c.n.toNat + 4 * c.c.toNat + 8 * c.v.toNat + 16 * c.mz.toNat + 32 * c.mf.toNat
    + 64 * c.tmo.toNat + 128 * c.nl.toNat)
/-- SWR CCR: writes to MZ and MF are ignored (09 R240). -/
def CC.ofWord (c : CC) (w : Dword) : CC :=
  { c with z := bit w 0, n := bit w 1, c := bit w 2, v := bit w 3, tmo := bit w 6, nl := bit w 7 }
/-- Every flag from a saved word (15 R356). -/
def CC.restore (w : Dword) : CC :=
  ⟨bit w 0, bit w 1, bit w 2, bit w 3, bit w 4, bit w 5, bit w 6, bit w 7⟩

/-- The active mask: m0, m1, m2 are s29 to s31 (06 R155). -/
def Thread.mask (t : Thread) : LaneMask :=
  let m (k : Nat) : Nat := ((t.sregs.getD (29 + k) SVal.zero).v.toNat) % 2 ^ 32
  BitVec.ofNat 96 (m 0 + m 1 * 2 ^ 32 + m 2 * 2 ^ 64)

/-- Word k of a mask. -/
def maskWord (m : LaneMask) (k : Nat) : Word := BitVec.ofNat 32 (m.toNat / 2 ^ (32 * k))
/-- A mask from its three words. -/
def maskOf (w : List Word) : LaneMask :=
  BitVec.ofNat 96 ((w.getD 0 0).toNat + (w.getD 1 0).toNat * 2 ^ 32 + (w.getD 2 0).toNat * 2 ^ 64)

/-- A mask write: lanes outside the live set are cleared, MZ and MF are set (06 R155, R156). -/
def Thread.setMask (t : Thread) (m : LaneMask) : Thread :=
  let m := m &&& t.live
  let put (r : List SVal) (k : Nat) : List SVal := setAt r (29 + k) ⟨(maskWord m k).zeroExtend 64, false⟩
  { t with sregs := put (put (put t.sregs 0) 1) 2, cc := { t.cc with mz := m == 0, mf := m == t.live } }

/-- One bit of CRC-32C, reflected (07 R195). -/
def crcBit (s : Word) : Word := if bit s 0 then (s >>> 1) ^^^ 0x82F63B78#32 else s >>> 1
def crcByte (s : Word) (b : Byte) : Word :=
  crcBit (crcBit (crcBit (crcBit (crcBit (crcBit (crcBit (crcBit (s ^^^ b.zeroExtend 32))))))))
/-- SIG after one word, its bytes in memory order (09 R242). -/
def crcWord (s w : Word) : Word :=
  let b (k : Nat) : Byte := BitVec.ofNat 8 (w.toNat / 256 ^ k)
  crcByte (crcByte (crcByte (crcByte s (b 0)) (b 1)) (b 2)) (b 3)

/-- SIG at start, and after SIGRST, SIGCHK and taken branches (09 R242). -/
def sigStart : Word := 0xFFFFFFFF

end Sys2Proof.Machine
end

