-- ==== Sys2Proof/Machine/Operands.lean ====
section
/-! DEFINITION. Reading and writing the registers of a thread: scalars with their banks and mask writes (09 R214, 06 R155),
vector registers through the window (02 R46), predicates (10 R245), and every operand form of 07 R174. -/
namespace Sys2Proof.Machine

/-! ### Scalars -/

/-- The names s0 to s15 reach the banked registers in supervisor mode (09 R214, 15 R341). -/
def Thread.getS (t : Thread) (r : SReg) : SVal :=
  if t.mode == .sup && r.val < 16 then t.banked.getD r.val SVal.zero else t.sregs.getD r.val SVal.zero
/-- Scalar r + k of a run (07 R175). -/
def Thread.getRun (t : Thread) (r : SReg) (k : Nat) : SVal :=
  if t.mode == .sup && r.val + k < 16 then t.banked.getD (r.val + k) SVal.zero else t.sregs.getD (r.val + k) SVal.zero

/-- One register, without the effect of a mask write. -/
def Thread.putReg (t : Thread) (n : Nat) (x : SVal) : Thread :=
  if t.mode == .sup && n < 16 then { t with banked := setAt t.banked n x } else { t with sregs := setAt t.sregs n x }

/-- A poisoned result is written as zero with P = 1 (08 R207). -/
def SVal.norm (x : SVal) : SVal := if x.p then ⟨0, true⟩ else x

/-- Write a run of scalars from register n. In a group in user mode a write to s29 to s31 is one mask write after all of
them; a poisoned value there faults and nothing is written (06 R155, 10 R261): none. -/
def Thread.putRun (t : Thread) (n : Nat) (xs : List SVal) : Option Thread :=
  let put := (mapFrom (fun k x => (k, x)) n xs).foldl (fun (t : Thread) (kx : Nat × SVal) => t.putReg kx.1 kx.2) t
  if t.mode == .user && !t.stream && 29 < n + xs.length then
    if (mapFrom (fun k (x : SVal) => 29 ≤ k && x.p) n xs).any id then none
    else some (put.setMask put.mask)
  else some put

/-! ### Vectors -/

/-- Lane L of register n of the allotment; a never-launched lane reads zero (06 R154). -/
def Thread.lane (t : Thread) (n L : Nat) : Lane := (t.vregs.getD n []).getD L Lane.zero
/-- Vector register vr through the window (02 R46). -/
def Thread.getV (t : Thread) (r : VReg) (L : Nat) : Lane := t.lane (t.wbase + r.val) L
/-- The pair vr:vr+1, low half first; poisoned when either half is (08 R206). -/
def Thread.getV2 (t : Thread) (r : VReg) (L : Nat) : SVal :=
  let a := t.lane (t.wbase + r.val) L
  let b := t.lane (t.wbase + r.val + 1) L
  ⟨b.v ++ a.v, a.p || b.p⟩

/-- An X operand of 32 bits in lane L (07 R174, 10 R244). -/
def Thread.getX (t : Thread) (o : XOpnd) (L : Nat) : Lane :=
  match o with
  | .v r => t.getV r L
  | .s r => ⟨(t.getS r).v.truncate 32, (t.getS r).p⟩
/-- An X operand of 64 bits in lane L (07 R174, 10 R244). -/
def Thread.getX64 (t : Thread) (o : XOpnd) (L : Nat) : SVal :=
  match o with
  | .v r => t.getV2 r L
  | .s r => t.getS r

/-- Write the lanes of register n of the allotment that a mask selects; a never-launched lane discards writes. -/
def Thread.putLanes (t : Thread) (n : Nat) (m : LaneMask) (f : Nat → Lane) : Thread :=
  let m := m &&& t.launched
  { t with vregs := modAt t.vregs n fun v => mapFrom (fun L old => if m.getLsbD L then f L else old) 0 v }
/-- Write the active lanes of vr (10 R244). -/
def Thread.putV (t : Thread) (r : VReg) (f : Nat → Lane) : Thread := t.putLanes (t.wbase + r.val) t.mask f
/-- Write the active lanes of the pair vr:vr+1, with equal P bits (08 R206). -/
def Thread.putV2 (t : Thread) (r : VReg) (f : Nat → SVal) : Thread :=
  (t.putLanes (t.wbase + r.val) t.mask fun L => ⟨(f L).v.truncate 32, (f L).p⟩).putLanes (t.wbase + r.val + 1) t.mask
    fun L => ⟨((f L).v >>> 32).truncate 32, (f L).p⟩

/-! ### Predicates -/

/-- A predicate register. -/
def Thread.getP (t : Thread) (r : PReg) : PredReg := t.preds.getD r.val ⟨0, 0⟩
/-- Lane L of a predicate: a poisoned bit reads 0 (10 R245). -/
def Thread.getPL (t : Thread) (r : PReg) (L : Nat) : Bool × Bool :=
  let p := t.getP r
  (p.v.getLsbD L && !p.p.getLsbD L, p.p.getLsbD L)
/-- A lane mask from a test of each lane. -/
def lanesWhere (f : Nat → Bool) : LaneMask :=
  BitVec.ofNat 96 ((List.range 96).foldl (fun a L => if f L then a + 2 ^ L else a) 0)
/-- Write lanes of a predicate under a mask; a poisoned bit is 0 with P = 1 (08 R207). -/
def Thread.putPM (t : Thread) (r : PReg) (m : LaneMask) (f : Nat → Bool × Bool) : Thread :=
  let m := m &&& t.launched
  let v := lanesWhere fun L => (f L).1 && !(f L).2
  let p := lanesWhere fun L => (f L).2
  { t with preds := modAt t.preds r.val fun o => ⟨(o.v &&& ~~~m) ||| (v &&& m), (o.p &&& ~~~m) ||| (p &&& m)⟩ }
def Thread.putP (t : Thread) (r : PReg) (f : Nat → Bool × Bool) : Thread := t.putPM r t.mask f

/-- The lowest lane of a mask. -/
def lowest (m : LaneMask) : Option Nat := (List.range 96).find? fun L => m.getLsbD L
/-- The lanes of a mask in ascending order. -/
def lanesOf (m : LaneMask) : List Nat := (List.range 96).filter fun L => m.getLsbD L

end Sys2Proof.Machine
end

