-- ==== Sys2Proof/Machine/Ops.lean ====
section
/-! DEFINITION. The named operations that every meaning shares: finding and changing the parts of the state, the outcome
of an instruction, taking a trap (15 R336 to R342) and returning from one (15 R347), context errors (15 R340). -/
namespace Sys2Proof.Machine

/-! ### Parts of the state -/

def State.thread? (s : State) (uid : Nat) : Option Thread :=
  if s.out && s.cur.uid == uid then some s.cur else s.threads.find? fun t => t.uid == uid
/-- A thread that runs, or that is saved by eviction. -/
def State.anyThread? (s : State) (uid : Nat) : Option Thread :=
  (s.thread? uid).or (s.saved.findSome? fun c => c.threads.find? fun t => t.uid == uid)
def State.team? (s : State) (id : Nat) : Option Team := s.teams.find? fun t => t.id == id
def State.grid? (s : State) (id : Nat) : Option Grid := s.grids.find? fun g => g.id == id
def State.cluster? (s : State) (id : Nat) : Option Cluster := s.clusters.find? fun c => c.id == id
def State.copy? (s : State) (id : Nat) : Option Copy := s.copies.find? fun c => c.id == id
def State.core (s : State) (c : Nat) : Core := s.cores.getD c Core.blank
def State.ctx (s : State) (slot : Nat) : Ctx := s.ctxs.getD slot Ctx.unknown

def State.modCore (s : State) (c : Nat) (f : Core → Core) : State := { s with cores := modAt s.cores c f }
def State.modCtx (s : State) (slot : Nat) (f : Ctx → Ctx) : State := { s with ctxs := modAt s.ctxs slot f }
def State.modTeam (s : State) (id : Nat) (f : Team → Team) : State :=
  { s with teams := s.teams.map fun t => if t.id == id then f t else t }
def State.modGrid (s : State) (id : Nat) (f : Grid → Grid) : State :=
  { s with grids := s.grids.map fun g => if g.id == id then f g else g }
def State.modCopy (s : State) (id : Nat) (f : Copy → Copy) : State :=
  { s with copies := s.copies.map fun c => if c.id == id then f c else c }
def State.modCur (s : State) (f : Thread → Thread) : State := { s with cur := f s.cur }

/-- Change a thread, checked out or not, or saved by eviction (14 R333: an answer that arrives meanwhile is recorded). -/
def State.modThread (s : State) (uid : Nat) (f : Thread → Thread) : State :=
  if s.out && s.cur.uid == uid then { s with cur := f s.cur }
  else
    let g (t : Thread) : Thread := if t.uid == uid then f t else t
    let threads := s.threads.map g
    { s with threads := threads, saved := s.saved.map fun c => { c with threads := c.threads.map g } }

/-- Put the thread that is checked out back in its place; one that has left is dropped. -/
def State.checkIn (s : State) : State :=
  if s.out then
    { s with threads := s.threads.map fun t => if t.uid == s.cur.uid then s.cur else t, cur := Thread.blank, out := false }
  else s
/-- Check a thread out for issue. -/
def State.checkOut (s : State) (t : Thread) : State := { s with cur := t, out := true }
/-- Do something as a thread; the thread that was checked out before comes back afterwards. -/
def State.asThread (s : State) (uid : Nat) (f : State → State) : State :=
  if s.out && s.cur.uid == uid then f s
  else match s.threads.find? fun t => t.uid == uid with
    | none => s
    | some t =>
      let r := (f (s.checkOut t)).checkIn
      { r with cur := s.cur, out := s.out }

/-- The grid, the package context entry and the team of a thread. -/
def State.gridOf (s : State) (t : Thread) : Option Grid :=
  (s.team? t.team).bind fun m => s.grid? m.grid
def State.slotOf (s : State) (t : Thread) : Nat := ((s.gridOf t).map Grid.slot).getD 0
def State.ctxOf (s : State) (t : Thread) : Ctx := s.ctx (s.slotOf t)
/-- Every thread, the one that is checked out in its place. -/
def State.allThreads (s : State) : List Thread :=
  if s.out then s.threads.map fun t => if t.uid == s.cur.uid then s.cur else t else s.threads

/-- The package's own endpoint number: the entry of the cell table with SELF (05 R123). -/
def State.self (s : State) : Nat := (s.celltab.findIdx? fun w => bit w 2).getD 0
def cellOf (s : State) (ep : Nat) : Nat := bits (s.celltab.getD ep 0) 8 8
def present (s : State) (ep : Nat) : Bool := ep ≤ bits s.spancfg 21 10 && bit (s.celltab.getD ep 0) 0
def isHost (s : State) (ep : Nat) : Bool := bit (s.celltab.getD ep 0) 1
def cellState (s : State) (cell : Nat) : Nat := bits (s.cstate.getD cell 0) 0 3
/-- A cell that is DEAD here (05 R124). -/
def deadCell (s : State) (cell : Nat) : Bool := cellState s cell == 3
def spanId (s : State) : Nat := bits s.spancfg 0 10

/-- A CTXCMD LOAD or PARK of a package context entry is in progress (20 R401). -/
def ctxBusy (s : State) (slot : Nat) : Bool := bit s.ctxcmd 62 && bits s.ctxcmd 0 8 == slot

/-- Loads at a slice come after the other events of their tick: a load that arrives at the tick at which a write is performed
is performed after it (02 R59). -/
def isLoadEvent : Instr → Bool
  | .l2LoadAnswer _ _ => true
  | _ => false
/-- An event that falls due at a tick; events of one tick keep the order in which they were asked for, loads last. -/
def agendaAdd (d : Nat) (i : Instr) : List (Nat × Instr) → List (Nat × Instr)
  | [] => [(d, i)]
  | (e, j) :: r =>
    if e < d || (e == d && (isLoadEvent i || !isLoadEvent j)) then (e, j) :: agendaAdd d i r else (d, i) :: (e, j) :: r
/-- MODEL: events that look at something that waits, as it then is, and ask for themselves again while it waits; one that
is due already serves (log 2). -/
def isPoll : Instr → Bool
  | .ctxcmdComplete | .waitEvaluate _ | .fqRetry _ | .copyUnitLand _ | .evictRetry _ | .clusterEvict _ | .wakeEvaluate _
  | .dispatchPlace | .dispatchRetry | .afterConditionRead _ | .gridCompletionActions _ | .launchAccept _
  | .recoveryRegionScan _ => true
  | _ => false
/-- MODEL: events of which a second one at the same tick finds nothing to do (log 2). -/
def isLook : Instr → Bool
  | .waitTimeout _ | .leaseExpiry _ | .pageWalkComplete _ | .l2LoadAnswer _ _ | .l2WritePerform _ | .storeBufferTimeout _ _
  | .requestTimeout _ | .sequencerGrant _ | .gridComplete _ | .migrationStart _ | .migrationCopyPage _ | .migrationFinish _
  | .memberScratchpadAccess _ | .copyLandingsComplete _ | .copyStampPerformed _ | .infieldTestStart _ | .rputDelivery _
  | .rputfDelivery _ | .rgetDelivery _ | .ratomDelivery _ | .invalidationAck _ => true
  | .uiArrival a => a.flag.isSome
  | _ => false
def State.post (s : State) (d : Nat) (i : Instr) : State :=
  if (isPoll i && s.agenda.any fun e => e.1 ≤ d && e.2 == i) || (isLook i && s.agenda.any fun e => e.1 == d && e.2 == i) then s
  else { s with agenda := agendaAdd d i s.agenda }
/-- An event that comes before everything else that is due: what arrived has its effect before what arrives after it. -/
def State.postFirst (s : State) (i : Instr) : State :=
  let d := match s.agenda with
    | (e, _) :: _ => min e s.now
    | [] => s.now
  { s with agenda := (d, i) :: s.agenda }
/-- A vector of the context may have become deliverable: its saved clusters are looked at (13 R317, 14 R333). -/
def lookSaved (s : State) (slot : Nat) : State :=
  s.saved.foldl (fun (s : State) c =>
    if ((s.grid? c.cluster.grid).map Grid.slot) == some slot then s.post s.now (.wakeEvaluate c.id) else s) s
/-- A write of a saved cluster's image has not been made or performed yet (log 34). -/
def imageDue (s : State) (c : SavedCluster) : Bool := !c.todo.isEmpty || s.l2w.any fun w => c.writes.1 ≤ w.id && w.id < c.writes.2
/-- The saved clusters that still take up their cores: their images are not in memory yet (15 R355). -/
def State.leaving (s : State) : List SavedCluster := s.saved.filter fun c => !c.off
def State.say (s : State) (m : OutMsg) : State := { s with outbox := m :: s.outbox }
/-- A number for a new thing, and the state that has spent it. -/
def State.fresh (s : State) : Nat × State := (s.seq, { s with seq := s.seq + 1 })
/-- Something has happened: every thread may try again (log 2). -/
def State.wake (s : State) : State :=
  { s with threads := s.threads.map fun t => { t with stall := false }, cur := { s.cur with stall := false } }

/-! ### Events to hosts (17 R367) -/

/-- A context event: the entry's EVSTAT bit, and a message when it changes from 0 to 1. -/
def hostEvent (s : State) (slot : Nat) (detail : Nat) (addr : Dword) : State :=
  if bit s.evstat slot then s
  else
    let s := { s with evstat := putBit s.evstat slot true }
    let pcie := bit s.evdest 10
    s.say (.contextEvent pcie (if pcie then 1 + slot else bits s.evdest 0 10) slot detail addr)
/-- A management event. -/
def managementEvent (s : State) (kind : Nat) : State :=
  let pcie := bit s.evdest 10
  s.say (.managementEvent pcie (if pcie then 0 else bits s.evdest 32 10) kind)

/-- Saturating add in a field of RASCNT: CE at 40, TRN at 24, LST at 8, SGM at 0 (16 R358). -/
def rasCount (s : State) (lo len : Nat) : State :=
  { s with rascnt := putBits s.rascnt lo len (min (bits s.rascnt lo len + 1) (2 ^ len - 1)) }
/-- Append to the RAS event queue of 32; a full queue loses the event and sets OVF; KIND 2, 3, 4 and 6 raise a management
event (16 R358). -/
def rasLog (s : State) (kind src loc : Nat) : State :=
  let e : RasEvent :=
    ⟨BitVec.ofNat 64 (2 ^ 63 + kind % 8 * 2 ^ 59 + src % 128 * 2 ^ 52 + loc % 2 ^ 45 * 2 ^ 7), BitVec.ofNat 64 s.now⟩
  let s := if s.raslog.length < 32 then { s with raslog := s.raslog ++ [e] } else { s with rasovf := true }
  if kind == 2 || kind == 3 || kind == 4 || kind == 6 then managementEvent s kind else s

/-! ### Leaving and context errors -/

/-- Abort a copy at its next unit boundary with a CAUSE (04 R107). -/
def abortCopy (s : State) (id : Nat) (cause : Byte) : State :=
  (s.modCopy id fun c => if c.stage == .finished || c.aborting.isSome then c else { c with aborting := some cause }).post
    s.now (.copyUnitLand id)

/-- End a grid with a context error (15 R340): every group and stream leaves at its next boundary, its copies are aborted
with CAUSE 0x0C, it completes with ERR and ECODE, and the host hears of it with the detail and address given. A grid that
has completed is reported to the host only. -/
def endGrid (s : State) (grid : Nat) (ecode : BitVec 16) (event : Bool) (detail : Nat) (addr : Dword) : State :=
  match s.grid? grid with
  | none => s
  | some g =>
    let s := if event then hostEvent s g.slot detail addr else s
    if g.stage != .running then s
    else
      let s := s.modGrid grid fun g => { g with err := true, ecode := if g.err then g.ecode else ecode }
      let inGrid (t : Thread) : Bool := ((s.team? t.team).map Team.grid) == some grid
      let s := { s with
        threads := s.threads.map fun t => if inGrid t then { t with ending := true } else t
        cur := if s.out && inGrid s.cur then { s.cur with ending := true } else s.cur }
      let s := (s.copies.filter fun c => c.grid == grid).foldl (fun s c => abortCopy s c.id 0x0C) s
      s.post s.now (.gridComplete grid)

/-- A context error raised by the thread that is checked out. -/
def contextError (s : State) (code detail : Nat) (evDetail : Nat) (addr : Dword) : State :=
  match s.team? s.cur.team with
  | none => s
  | some m => endGrid s m.grid (BitVec.ofNat 16 (code % 256 + detail % 256 * 256)) true evDetail addr

/-! ### The operand log (11 R267) -/

/-- Lanes that have still to be performed. -/
def LogEntry.unperformed (e : LogEntry) : LaneMask := e.active &&& ~~~e.performed
/-- Lanes that have faulted. -/
def LogEntry.faulted (e : LogEntry) : LaneMask := lanesWhere fun L => e.faults.any fun f => f.1 == L
/-- Every lane is performed or faulted, and some lane faulted: the trap can be taken (11 R266). -/
def LogEntry.trapReady (e : LogEntry) : Bool :=
  !e.faults.isEmpty && !e.held && (e.unperformed &&& ~~~e.faulted) == 0
/-- Entries that count for a thread in its present mode (03 R81). -/
def Thread.liveLog (t : Thread) : List LogEntry := t.log.filter fun e => e.sup == (t.mode == .sup)
def Thread.modEntry (t : Thread) (id : Nat) (f : LogEntry → LogEntry) : Thread :=
  { t with log := t.log.map fun e => if e.id == id then f e else e }
/-- An entry frees when every active lane has been performed. -/
def Thread.sweepLog (t : Thread) : Thread := { t with log := t.log.filter fun e => e.unperformed != 0 }

/-! ### Taking a trap -/

/-- Trap entry (15 R341): `pc` is TRAPPC, `insn` the faulting word, `entry` the operand log entry of a logged trap. -/
def enterTrap (t : Thread) (trap : Trap) (pc : Dword) (insn : Word) (entry : Option LogEntry) (vec : Dword) : Thread :=
  { t with
    trapcode := BitVec.ofNat 64 (trap.code + trap.detail * 256)
    trapaddr := trap.addr
    trappc := pc
    trapmask := [maskWord t.mask 0, maskWord t.mask 1, maskWord t.mask 2]
    trapnpc := if entry.isSome then t.pc else 0
    trapLog := entry.isSome
    trapDrop := false
    fltpend := (entry.map LogEntry.unperformed).getD 0
    fltinsn := insn
    trapEntry := (entry.map LogEntry.id).getD 0
    savedSig := t.sig
    sig := sigStart
    mode := .sup
    lselv := (lowest t.mask).getD 0
    pc := vec
    fetched := none
    wait := .none }

/-- A group that waited at a SEQGO or a LAUNCH waits there no longer (06 R159, 09 R237). -/
def leaveQueues (s : State) (slot core uid : Nat) : State :=
  let s := if (s.ctx slot).launches.contains uid then
    s.modCtx slot fun c => { c with launches := c.launches.filter fun u => u != uid } else s
  if (s.core core).seqwait.contains uid then
    ((s.modCore core fun k => { k with seqwait := k.seqwait.filter fun u => u != uid }).post s.now (.sequencerGrant core)).wake
  else s

/-- A trap of the thread that is checked out goes where 15 R339 and R342 send it: a stream's is a context error and the
stream ends (06 R158); one in supervisor mode halts the group with DOUBLE_FAULT, and the host hears its code and detail as TRAPCODE has
them (09 R229, log 77); a logged one whose EXTMASK bit is set
waits for external service; else TRAPVEC, or a context error without one, which leaves the trap's code, PC and address in the
group's registers (20 R399). -/
def takeTrap (s : State) (trap : Trap) (pc : Dword) (insn : Word) (entry : Option LogEntry) : State :=
  let t := s.cur
  let c := s.ctxOf t
  let s := leaveQueues s (s.slotOf t) t.core t.uid
  let fatal (s : State) : State := contextError (s.modCur fun t => { t with
    trapcode := BitVec.ofNat 64 (trap.code + trap.detail * 256), trappc := pc, trapaddr := trap.addr })
      trap.code trap.detail trap.detail trap.addr
  if t.stream then (contextError s trap.code trap.detail trap.detail trap.addr).modCur fun t => { t with ending := true }
  else if t.mode == .sup then contextError s 0x16 trap.code (trap.code + trap.detail * 256) trap.addr
  else match entry with
    | some e =>
      if bit c.extmask trap.code then
        let s := s.modCur fun t => { t.modEntry e.id fun e => { e with held := true } with wait := .replay }
        let team := s.team? t.team
        let grid := (team.map Team.grid).getD 0
        let word0 := BitVec.ofNat 64 (trap.code + trap.detail * 256 + t.core * 2 ^ 37
          + ((team.map Team.slot).getD 0) * 2 ^ 46 + t.gid * 2 ^ 48)
        let handle := ((s.grid? grid).map fun g => g.r.cblk).getD 0
        let slot := s.slotOf t
        (s.modCtx slot fun c => { c with fqwait := c.fqwait ++ [([word0, trap.addr, pc, handle], grid)] }).post s.now (.fqRetry slot)
      else if c.trapvec != 0 then s.modCur fun t => enterTrap t trap pc insn (some e) c.trapvec
      else fatal s
    | none =>
      if c.trapvec != 0 then s.modCur fun t => enterTrap t trap pc insn none c.trapvec
      else fatal s

/-- Return from a trap (15 R347), without the effect on the log. -/
def leaveTrap (t : Thread) : Thread :=
  let pc := if t.trapLog then t.trapnpc else t.trappc
  { t with mode := .user, sig := t.savedSig, pc := pc, trapLog := false, trapDrop := false, fetched := none }.setMask
    (maskOf t.trapmask)

/-! ### What an instruction comes to -/

/-- The end of an instruction's meaning. -/
inductive Res where
  /-- it has issued; the next word follows, and its word enters SIG -/
  | ok (s : State)
  /-- as `ok`, but the meaning has set SIG itself -/
  | okSig (s : State)
  /-- a taken branch: SIG starts afresh (09 R242) -/
  | jump (s : State) (target : Dword)
  /-- an unlogged trap at the instruction, in the state given -/
  | trap (s : State) (t : Trap)
  /-- an unlogged trap with TRAPPC at the next instruction: SYS, SIGCHK and FENCE.SPAN reports (15 R337) -/
  | trapNext (s : State) (t : Trap)
  /-- as `trapNext`, where the meaning has set SIG itself -/
  | trapSig (s : State) (t : Trap)
  /-- a blocking point: the PC stays, the wake condition is kept -/
  | wait (s : State) (w : Wait)
  /-- an interlock: the PC stays -/
  | stall (s : State)
  /-- the instruction has set the PC itself, or the thread has left -/
  | done (s : State)

def ILLEGAL_INSN : Nat := 0x01
def PRIV_VIOLATION : Nat := 0x02
def REG_WINDOW : Nat := 0x03
def MISALIGNED : Nat := 0x04
def PAGE_FAULT : Nat := 0x05
def ACCESS_VIOLATION : Nat := 0x06
def PARAPET_DENIED : Nat := 0x07
def REMOTE_TIMEOUT : Nat := 0x08
def HOME_LOST : Nat := 0x09
def POISON_CONSUMED : Nat := 0x0A
def LAYOUT_INVALID : Nat := 0x0B
def COPY_ABORTED : Nat := 0x0C
def MCAST_RANGE : Nat := 0x0D
def BARRIER_OVERRUN : Nat := 0x0E
def SYNCWORD_INVALID : Nat := 0x0F
def SIGNATURE_MISMATCH : Nat := 0x10
def MATRIX_OPERAND : Nat := 0x11
def UINT_DENIED : Nat := 0x12
def SYS : Nat := 0x13
def BRK : Nat := 0x14
def FETCH_FAULT : Nat := 0x15
def DOUBLE_FAULT : Nat := 0x16
def REMOTE_WINDOW : Nat := 0x17

/-- POISON_CONSUMED has TRAPADDR 0 (15 R336). -/
def poisonTrap : Trap := ⟨POISON_CONSUMED, 0, 0⟩
/-- A trap whose TRAPADDR is the address of the instruction (15 R336). -/
def hereTrap (s : State) (code detail : Nat) : Trap := ⟨code, detail, s.cur.pc⟩

/-- Registers of the allotment, or scalars, that an operand covers: whether a log entry still has to write one. -/
def Use.awaits (t : Thread) (u : Use) (e : LogEntry) : Bool :=
  match e.dst, u.o with
  | .vec b n, .v r m => t.wbase + r.val < b + n && b < t.wbase + r.val + m
  | .vec b n, .run5 (.v r) => t.wbase + r.val < b + n && b < t.wbase + r.val + 5
  | .vec b n, .frozen r => t.wbase + r.val < b + n && b ≤ t.wbase + r.val
  | .scal q k, .s r m => k == (t.mode == .sup && q.val < 16) && r.val ≤ q.val && q.val < r.val + m
  | .scal q k, .run5 (.s r) => k == (t.mode == .sup && q.val < 16) && r.val ≤ q.val && q.val < r.val + 5
  | _, _ => false
/-- The interlock of 10 R246: a load or an atomic of the log has still to write a register that the instruction names. -/
def Thread.interlocked (t : Thread) (us : List Use) : Bool :=
  let log := t.liveLog
  -- a load of the mask is awaited by every instruction (03 R75)
  !log.isEmpty && (log.any (fun e => e.unperformed != 0 && maskLoad e.dst)
    || us.any fun u => log.any fun e => e.unperformed != 0 && Use.awaits t u e)
where
  maskLoad : Dst → Bool
    | .scal r _ => t.mode == .user && !t.stream && 29 ≤ r.val
    | _ => false

/-- Step 9 of 07 R184: a vector register named beyond the allotment (02 R46). -/
def Use.beyond (t : Thread) (u : Use) : Bool :=
  match u.o with
  | .v r n => t.allot < t.wbase + r.val + n
  | .run5 (.v r) => t.allot < t.wbase + r.val + 5
  | .frozen r => t.allot ≤ t.wbase + r.val
  | _ => false

/-- The trap of a rejected word (07 R184). -/
def rejectTrap (pc : Dword) : Reject → Trap
  | .illegal d => ⟨ILLEGAL_INSN, d, pc⟩
  | .priv => ⟨PRIV_VIOLATION, 0, pc⟩

/-- An unlogged trap waits until the lanes of older entries are performed or have faulted, and their fault comes first
(15 R338). -/
def raise (s : State) (trap : Trap) (pc : Dword) (insn : Word) : State :=
  if s.cur.liveLog.any fun e => e.unperformed != 0 then s.modCur fun t => { t with stall := true }
  else takeTrap s trap pc insn none

/-- What the thread keeps when an instruction has issued. -/
def Thread.issued (t : Thread) (now : Nat) (pc : Dword) : Thread :=
  { t with pc := pc, wait := .none, stall := false, issuedAt := some now }

/-- The end of an instruction of the thread that is checked out, from the state `s` before it. -/
def conclude (s : State) : Res → State
  | .ok r => r.modCur fun t => { t.issued s.now (s.cur.pc + 4) with sig := crcWord t.sig s.iw }
  | .okSig r => r.modCur fun t => t.issued s.now (s.cur.pc + 4)
  | .jump r a => r.modCur fun t => { t.issued s.now a with sig := sigStart, fetched := none }
  | .trap r t => raise r t s.cur.pc s.iw
  | .trapNext r t =>
    -- the word has executed, so its trap finds it in SIG (09 R242; log 24)
    if r.cur.liveLog.any fun e => e.unperformed != 0 then r.modCur fun t => { t with stall := true }
    else takeTrap (r.modCur fun t => { t with sig := crcWord t.sig s.iw }) t (s.cur.pc + 4) s.iw none
  | .trapSig r t => raise r t (s.cur.pc + 4) s.iw
  | .wait r w => r.modCur fun t => { t with wait := w, stall := true }
  | .stall r => r.modCur fun t => { t with stall := true }
  | .done r => r

/-- The mode in which a thread's words decode (07 R176). -/
def Thread.decodeMode (t : Thread) : Mode := if t.stream then .seq else t.mode

/-- Issue one instruction word as the thread that is checked out: `legal` are its modes (07 R184 steps 7 and 8), `us` the
registers it names: the register window (step 9), the interlock on the operand log (10 R246), then its own meaning. -/
def issue (legal : Bool × Bool × Bool) (us : List Use) (s : State) (k : State → Res) : Host.Outcome State Fault Refusal :=
  match modeReject legal s.cur.decodeMode with
  | some r => .next (conclude s (.trap s (rejectTrap s.cur.pc r)))
  | none =>
    if us.any (Use.beyond s.cur) then .next (conclude s (.trap s (hereTrap s REG_WINDOW 0)))
    else if s.cur.interlocked us then .next (conclude s (.stall s))
    else .next (conclude s (k s))

/-- Write scalars and go on; POISON_CONSUMED where poison would enter the mask (06 R155). -/
def putScalars (s : State) (n : Nat) (xs : List SVal) : Res :=
  match s.cur.putRun n (xs.map SVal.norm) with
  | some t => .ok { s with cur := t }
  | none => .trap s poisonTrap

end Sys2Proof.Machine
end

