-- ==== Sys2Proof/Machine/Salu.lean ====
section
/-! DEFINITION. Scalar arithmetic and logic: SALU, the immediate forms, SLUI and SLHI (09 R214 to R220). -/
namespace Sys2Proof.Machine

/-- A ÷ B signed, truncated toward zero; the fixed results of 09 R216. -/
def sdiv (a b : Dword) : Dword :=
  if b == 0 then BitVec.allOnes 64 else BitVec.ofInt 64 (a.toInt.tdiv b.toInt)
/-- A ÷ B unsigned (09 R216). -/
def sdivu (a b : Dword) : Dword := if b == 0 then BitVec.allOnes 64 else BitVec.ofNat 64 (a.toNat / b.toNat)
/-- The remainder of sdiv, with the sign of A; A where B = 0 (09 R215, R216). -/
def srem (a b : Dword) : Dword := if b == 0 then a else BitVec.ofInt 64 (a.toInt.tmod b.toInt)
def sremu (a b : Dword) : Dword := if b == 0 then a else BitVec.ofNat 64 (a.toNat % b.toNat)
def smulh (a b : Dword) : Dword := BitVec.ofInt 64 (a.toInt * b.toInt / 2 ^ 64)
def smulhu (a b : Dword) : Dword := BitVec.ofNat 64 (a.toNat * b.toNat / 2 ^ 64)
/-- Count of leading zero bits of n bits. -/
def clz : Nat → Nat → Nat
  | 0, _ => 0
  | n + 1, v => if v.testBit n then 0 else 1 + clz n v
/-- Count of trailing zero bits, at most n. -/
def ctz : Nat → Nat → Nat
  | 0, _ => 0
  | n + 1, v => if v.testBit 0 then 0 else 1 + ctz n (v / 2)
/-- Count of one bits among the low n. -/
def popc : Nat → Nat → Nat
  | 0, _ => 0
  | n + 1, v => (v % 2) + popc n (v / 2)
/-- The low n bits reversed. -/
def brev : Nat → Nat → Nat
  | 0, _ => 0
  | n + 1, v => (v % 2) * 2 ^ n + brev n (v / 2)
/-- The field operand of SBFE, SBFEU, SBFI: position and width (09 R217). -/
def sfield (b : Dword) : Nat × Nat := (bits b 0 6, min (bits b 8 7) 64)
/-- Zero-extended field (09 R217). -/
def sbfeu (a b : Dword) : Dword := BitVec.ofNat 64 (a.toNat / 2 ^ (sfield b).1 % 2 ^ (sfield b).2)
/-- Sign-extended field (09 R217). -/
def sbfe (a b : Dword) : Dword := if (sfield b).2 == 0 then 0 else sext64 (sfield b).2 (sbfeu a b).toNat
/-- D with a field replaced by A (09 R217). -/
def sbfi (d a b : Dword) : Dword :=
  let mask : Dword := BitVec.ofNat 64 (2 ^ (sfield b).2 - 1)
  (d &&& ~~~(mask <<< (sfield b).1)) ||| ((a &&& mask) <<< (sfield b).1)

/-- A binary scalar operation: poisoned when an operand is (09 R214). -/
def scalar2 (s : State) (d a b : SReg) (f : Dword → Dword → Dword) : Res :=
  let x := s.cur.getS a
  let y := s.cur.getS b
  putScalars s d.val [⟨f x.v y.v, x.p || y.p⟩]
/-- A unary scalar operation. -/
def scalar1 (s : State) (d a : SReg) (f : Dword → Dword) : Res :=
  let x := s.cur.getS a
  putScalars s d.val [⟨f x.v, x.p⟩]
/-- SCMP and SCMPI: a poisoned operand faults, and CC is unchanged (09 R218). -/
def compareScalars (s : State) (x y : SVal) : Res :=
  if x.p || y.p then .trap s poisonTrap
  else .ok (s.modCur fun t => { t with cc := t.cc.compare x.v y.v })

/-- 09 R215. -/
def execSadd (d : SReg) (a : SReg) (b : SReg) (s : State) : Host.Outcome State Fault Refusal :=
  issue anyMode [wS d, rS a, rS b] s fun s =>
    scalar2 s d a b (fun x y => x + y)

/-- 09 R215. -/
def execSsub (d : SReg) (a : SReg) (b : SReg) (s : State) : Host.Outcome State Fault Refusal :=
  issue anyMode [wS d, rS a, rS b] s fun s =>
    scalar2 s d a b (fun x y => x - y)

/-- 09 R215. -/
def execSmul (d : SReg) (a : SReg) (b : SReg) (s : State) : Host.Outcome State Fault Refusal :=
  issue anyMode [wS d, rS a, rS b] s fun s =>
    scalar2 s d a b (fun x y => x * y)

/-- 09 R215. -/
def execSmulh (d : SReg) (a : SReg) (b : SReg) (s : State) : Host.Outcome State Fault Refusal :=
  issue anyMode [wS d, rS a, rS b] s fun s =>
    scalar2 s d a b smulh

/-- 09 R215. -/
def execSmulhu (d : SReg) (a : SReg) (b : SReg) (s : State) : Host.Outcome State Fault Refusal :=
  issue anyMode [wS d, rS a, rS b] s fun s =>
    scalar2 s d a b smulhu

/-- 09 R216. -/
def execSdiv (d : SReg) (a : SReg) (b : SReg) (s : State) : Host.Outcome State Fault Refusal :=
  issue anyMode [wS d, rS a, rS b] s fun s =>
    scalar2 s d a b sdiv

/-- 09 R216. -/
def execSdivu (d : SReg) (a : SReg) (b : SReg) (s : State) : Host.Outcome State Fault Refusal :=
  issue anyMode [wS d, rS a, rS b] s fun s =>
    scalar2 s d a b sdivu

/-- 09 R216. -/
def execSrem (d : SReg) (a : SReg) (b : SReg) (s : State) : Host.Outcome State Fault Refusal :=
  issue anyMode [wS d, rS a, rS b] s fun s =>
    scalar2 s d a b srem

/-- 09 R216. -/
def execSremu (d : SReg) (a : SReg) (b : SReg) (s : State) : Host.Outcome State Fault Refusal :=
  issue anyMode [wS d, rS a, rS b] s fun s =>
    scalar2 s d a b sremu

/-- 09 R215. -/
def execSand (d : SReg) (a : SReg) (b : SReg) (s : State) : Host.Outcome State Fault Refusal :=
  issue anyMode [wS d, rS a, rS b] s fun s =>
    scalar2 s d a b (fun x y => x &&& y)

/-- 09 R215. -/
def execSor (d : SReg) (a : SReg) (b : SReg) (s : State) : Host.Outcome State Fault Refusal :=
  issue anyMode [wS d, rS a, rS b] s fun s =>
    scalar2 s d a b (fun x y => x ||| y)

/-- 09 R215. -/
def execSxor (d : SReg) (a : SReg) (b : SReg) (s : State) : Host.Outcome State Fault Refusal :=
  issue anyMode [wS d, rS a, rS b] s fun s =>
    scalar2 s d a b (fun x y => x ^^^ y)

/-- 09 R215. -/
def execSandn (d : SReg) (a : SReg) (b : SReg) (s : State) : Host.Outcome State Fault Refusal :=
  issue anyMode [wS d, rS a, rS b] s fun s =>
    scalar2 s d a b (fun x y => x &&& ~~~y)

/-- 09 R215. -/
def execSshl (d : SReg) (a : SReg) (b : SReg) (s : State) : Host.Outcome State Fault Refusal :=
  issue anyMode [wS d, rS a, rS b] s fun s =>
    scalar2 s d a b (fun x y => x <<< bits y 0 6)

/-- 09 R215. -/
def execSshr (d : SReg) (a : SReg) (b : SReg) (s : State) : Host.Outcome State Fault Refusal :=
  issue anyMode [wS d, rS a, rS b] s fun s =>
    scalar2 s d a b (fun x y => x >>> bits y 0 6)

/-- 09 R215. -/
def execSsra (d : SReg) (a : SReg) (b : SReg) (s : State) : Host.Outcome State Fault Refusal :=
  issue anyMode [wS d, rS a, rS b] s fun s =>
    scalar2 s d a b (fun x y => x.sshiftRight (bits y 0 6))

/-- 09 R215. -/
def execSmin (d : SReg) (a : SReg) (b : SReg) (s : State) : Host.Outcome State Fault Refusal :=
  issue anyMode [wS d, rS a, rS b] s fun s =>
    scalar2 s d a b (fun x y => if x.slt y then x else y)

/-- 09 R215. -/
def execSmax (d : SReg) (a : SReg) (b : SReg) (s : State) : Host.Outcome State Fault Refusal :=
  issue anyMode [wS d, rS a, rS b] s fun s =>
    scalar2 s d a b (fun x y => if x.slt y then y else x)

/-- 09 R215. -/
def execSminu (d : SReg) (a : SReg) (b : SReg) (s : State) : Host.Outcome State Fault Refusal :=
  issue anyMode [wS d, rS a, rS b] s fun s =>
    scalar2 s d a b (fun x y => if x.ult y then x else y)

/-- 09 R215. -/
def execSmaxu (d : SReg) (a : SReg) (b : SReg) (s : State) : Host.Outcome State Fault Refusal :=
  issue anyMode [wS d, rS a, rS b] s fun s =>
    scalar2 s d a b (fun x y => if x.ult y then y else x)

/-- 09 R217. -/
def execSbfe (d : SReg) (a : SReg) (b : SReg) (s : State) : Host.Outcome State Fault Refusal :=
  issue anyMode [wS d, rS a, rS b] s fun s =>
    scalar2 s d a b sbfe

/-- 09 R217. -/
def execSbfeu (d : SReg) (a : SReg) (b : SReg) (s : State) : Host.Outcome State Fault Refusal :=
  issue anyMode [wS d, rS a, rS b] s fun s =>
    scalar2 s d a b sbfeu

/-- 09 R215. -/
def execSclz (d : SReg) (a : SReg) (s : State) : Host.Outcome State Fault Refusal :=
  issue anyMode [wS d, rS a] s fun s =>
    scalar1 s d a (fun x => BitVec.ofNat 64 (clz 64 x.toNat))

/-- 09 R215. -/
def execSctz (d : SReg) (a : SReg) (s : State) : Host.Outcome State Fault Refusal :=
  issue anyMode [wS d, rS a] s fun s =>
    scalar1 s d a (fun x => BitVec.ofNat 64 (ctz 64 x.toNat))

/-- 09 R215. -/
def execSpopc (d : SReg) (a : SReg) (s : State) : Host.Outcome State Fault Refusal :=
  issue anyMode [wS d, rS a] s fun s =>
    scalar1 s d a (fun x => BitVec.ofNat 64 (popc 64 x.toNat))

/-- 09 R215. -/
def execSbrev (d : SReg) (a : SReg) (s : State) : Host.Outcome State Fault Refusal :=
  issue anyMode [wS d, rS a] s fun s =>
    scalar1 s d a (fun x => BitVec.ofNat 64 (brev 64 x.toNat))

/-- 09 R217: SBFI reads D, and its P bit -/
def execSbfi (d : SReg) (a : SReg) (b : SReg) (s : State) : Host.Outcome State Fault Refusal :=
  issue anyMode [mS d, rS a, rS b] s fun s =>
    let x := s.cur.getS a
    let y := s.cur.getS b
    let z := s.cur.getS d
    putScalars s d.val [⟨sbfi z.v x.v y.v, x.p || y.p || z.p⟩]

/-- 09 R218. -/
def execScmp (a : SReg) (b : SReg) (s : State) : Host.Outcome State Fault Refusal :=
  issue anyMode [rS a, rS b] s fun s =>
    compareScalars s (s.cur.getS a) (s.cur.getS b)

/-- 09 R218. -/
def execScmpi (a : SReg) (i : BitVec 13) (s : State) : Host.Outcome State Fault Refusal :=
  issue anyMode [rS a] s fun s =>
    compareScalars s (s.cur.getS a) ⟨sext64 13 i.toNat, false⟩

/-- 09 R215: it reads only the operand it selects (09 R217) -/
def execSsel (d : SReg) (a : SReg) (b : SReg) (s : State) : Host.Outcome State Fault Refusal :=
  issue anyMode [wS d, rS a, rS b] s fun s =>
    putScalars s d.val [if s.cur.cc.z then s.cur.getS a else s.cur.getS b]

/-- 09 R219. -/
def execSaddi (d : SReg) (a : SReg) (i : BitVec 13) (s : State) : Host.Outcome State Fault Refusal :=
  issue anyMode [wS d, rS a] s fun s =>
    scalar1 s d a (fun x => x + sext64 13 i.toNat)

/-- 09 R219. -/
def execSandi (d : SReg) (a : SReg) (i : BitVec 13) (s : State) : Host.Outcome State Fault Refusal :=
  issue anyMode [wS d, rS a] s fun s =>
    scalar1 s d a (fun x => x &&& sext64 13 i.toNat)

/-- 09 R219. -/
def execSori (d : SReg) (a : SReg) (i : BitVec 13) (s : State) : Host.Outcome State Fault Refusal :=
  issue anyMode [wS d, rS a] s fun s =>
    scalar1 s d a (fun x => x ||| sext64 13 i.toNat)

/-- 09 R219. -/
def execSxori (d : SReg) (a : SReg) (i : BitVec 13) (s : State) : Host.Outcome State Fault Refusal :=
  issue anyMode [wS d, rS a] s fun s =>
    scalar1 s d a (fun x => x ^^^ sext64 13 i.toNat)

/-- 09 R219. -/
def execSshli (d : SReg) (a : SReg) (n : Fin 64) (s : State) : Host.Outcome State Fault Refusal :=
  issue anyMode [wS d, rS a] s fun s =>
    scalar1 s d a (fun x => x <<< n.val)

/-- 09 R219. -/
def execSshri (d : SReg) (a : SReg) (n : Fin 64) (s : State) : Host.Outcome State Fault Refusal :=
  issue anyMode [wS d, rS a] s fun s =>
    scalar1 s d a (fun x => x >>> n.val)

/-- 09 R219. -/
def execSsrai (d : SReg) (a : SReg) (n : Fin 64) (s : State) : Host.Outcome State Fault Refusal :=
  issue anyMode [wS d, rS a] s fun s =>
    scalar1 s d a (fun x => x.sshiftRight n.val)

/-- 09 R219. -/
def execSroti (d : SReg) (a : SReg) (n : Fin 64) (s : State) : Host.Outcome State Fault Refusal :=
  issue anyMode [wS d, rS a] s fun s =>
    scalar1 s d a (fun x => x.rotateRight n.val)

/-- 09 R220. -/
def execSlui (d : SReg) (i : BitVec 20) (s : State) : Host.Outcome State Fault Refusal :=
  issue anyMode [wS d] s fun s =>
    putScalars s d.val [⟨sext64 20 i.toNat, false⟩]

/-- 09 R220: it reads D, and its P bit passes -/
def execSlhi (d : SReg) (i : BitVec 20) (s : State) : Host.Outcome State Fault Refusal :=
  issue anyMode [mS d] s fun s =>
    scalar1 s d d (fun x => (x <<< 20) ||| i.zeroExtend 64)

end Sys2Proof.Machine
end

