-- ==== Sys2Proof/Machine/Vialu.lean ====
section
/-! DEFINITION. Vector integer arithmetic: VIALU and VMOVI (10 R244 to R249). -/
namespace Sys2Proof.Machine

/-- A result of a lane: poisoned, it is zero with P = 1 (08 R207). -/
def laneOf (v : Word) (p : Bool) : Lane := if p then ⟨0, true⟩ else ⟨v, false⟩
def pairOf (v : Dword) (p : Bool) : SVal := if p then ⟨0, true⟩ else ⟨v, false⟩

/-- Write the active lanes of d, every source read first (10 R244). -/
def vecWrite (s : State) (d : VReg) (f : Thread → Nat → Lane) : Res := .ok { s with cur := s.cur.putV d (f s.cur) }
def pairWrite (s : State) (d : VReg) (f : Thread → Nat → SVal) : Res := .ok { s with cur := s.cur.putV2 d (f s.cur) }

/-- d := f a b, lane by lane. -/
def vec2 (s : State) (d a : VReg) (b : XOpnd) (f : Word → Word → Word) : Res :=
  vecWrite s d fun t L => laneOf (f (t.getV a L).v (t.getX b L).v) ((t.getV a L).p || (t.getX b L).p)
/-- d := f a, lane by lane. -/
def vec1 (s : State) (d a : VReg) (f : Word → Word) : Res :=
  vecWrite s d fun t L => laneOf (f (t.getV a L).v) (t.getV a L).p
/-- d := f d a b, lane by lane: D's P bit enters the result (10 R247). -/
def vec3 (s : State) (d a : VReg) (b : XOpnd) (f : Word → Word → Word → Word) : Res :=
  vecWrite s d fun t L =>
    laneOf (f (t.getV d L).v (t.getV a L).v (t.getX b L).v) ((t.getV d L).p || (t.getV a L).p || (t.getX b L).p)
/-- d := f a b on pairs, lane by lane. -/
def pair2 (s : State) (d a : VReg) (b : XOpnd) (f : Dword → Dword → Dword) : Res :=
  pairWrite s d fun t L => pairOf (f (t.getV2 a L).v (t.getX64 b L).v) ((t.getV2 a L).p || (t.getX64 b L).p)

/-- The field operand of VBFE, VBFEU, VBFI: position and width (10 R248). -/
def vfield (b : Word) : Nat × Nat := (bits b 0 5, min (bits b 8 6) 32)
def vbfeu (a b : Word) : Word := BitVec.ofNat 32 (a.toNat / 2 ^ (vfield b).1 % 2 ^ (vfield b).2)
def vbfe (a b : Word) : Word :=
  if (vfield b).2 == 0 then 0 else BitVec.ofInt 32 (sextInt (vfield b).2 (vbfeu a b).toNat)
def vbfi (d a b : Word) : Word :=
  let mask : Word := BitVec.ofNat 32 (2 ^ (vfield b).2 - 1)
  (d &&& ~~~(mask <<< (vfield b).1)) ||| ((a &&& mask) <<< (vfield b).1)
/-- Dot product of four bytes (10 R247). -/
def dp4 (f : Nat → Int) (d a b : Word) : Word :=
  d + BitVec.ofInt 32 ((List.range 4).foldl (fun acc k => acc + f (bits a (8 * k) 8) * f (bits b (8 * k) 8)) 0)

/-- 10 R247. -/
def execVadd (d : VReg) (a : VReg) (b : XOpnd) (s : State) : Host.Outcome State Fault Refusal :=
  issue userOnly [wV d 1, rV a 1, rX b] s fun s =>
    vec2 s d a b (fun x y => x + y)

/-- 10 R247. -/
def execVsub (d : VReg) (a : VReg) (b : XOpnd) (s : State) : Host.Outcome State Fault Refusal :=
  issue userOnly [wV d 1, rV a 1, rX b] s fun s =>
    vec2 s d a b (fun x y => x - y)

/-- 10 R247. -/
def execVmul (d : VReg) (a : VReg) (b : XOpnd) (s : State) : Host.Outcome State Fault Refusal :=
  issue userOnly [wV d 1, rV a 1, rX b] s fun s =>
    vec2 s d a b (fun x y => x * y)

/-- 10 R247. -/
def execVmulh (d : VReg) (a : VReg) (b : XOpnd) (s : State) : Host.Outcome State Fault Refusal :=
  issue userOnly [wV d 1, rV a 1, rX b] s fun s =>
    vec2 s d a b (fun x y => BitVec.ofInt 32 (x.toInt * y.toInt / 2 ^ 32))

/-- 10 R247. -/
def execVmulhu (d : VReg) (a : VReg) (b : XOpnd) (s : State) : Host.Outcome State Fault Refusal :=
  issue userOnly [wV d 1, rV a 1, rX b] s fun s =>
    vec2 s d a b (fun x y => BitVec.ofNat 32 (x.toNat * y.toNat / 2 ^ 32))

/-- 10 R247. -/
def execVmad (d : VReg) (a : VReg) (b : XOpnd) (s : State) : Host.Outcome State Fault Refusal :=
  issue userOnly [mV d 1, rV a 1, rX b] s fun s =>
    vec3 s d a b (fun z x y => x * y + z)

/-- 10 R247. -/
def execVand (d : VReg) (a : VReg) (b : XOpnd) (s : State) : Host.Outcome State Fault Refusal :=
  issue userOnly [wV d 1, rV a 1, rX b] s fun s =>
    vec2 s d a b (fun x y => x &&& y)

/-- 10 R247. -/
def execVor (d : VReg) (a : VReg) (b : XOpnd) (s : State) : Host.Outcome State Fault Refusal :=
  issue userOnly [wV d 1, rV a 1, rX b] s fun s =>
    vec2 s d a b (fun x y => x ||| y)

/-- 10 R247. -/
def execVxor (d : VReg) (a : VReg) (b : XOpnd) (s : State) : Host.Outcome State Fault Refusal :=
  issue userOnly [wV d 1, rV a 1, rX b] s fun s =>
    vec2 s d a b (fun x y => x ^^^ y)

/-- 10 R247. -/
def execVandn (d : VReg) (a : VReg) (b : XOpnd) (s : State) : Host.Outcome State Fault Refusal :=
  issue userOnly [wV d 1, rV a 1, rX b] s fun s =>
    vec2 s d a b (fun x y => x &&& ~~~y)

/-- 10 R247. -/
def execVshl (d : VReg) (a : VReg) (b : XOpnd) (s : State) : Host.Outcome State Fault Refusal :=
  issue userOnly [wV d 1, rV a 1, rX b] s fun s =>
    vec2 s d a b (fun x y => x <<< bits y 0 5)

/-- 10 R247. -/
def execVshr (d : VReg) (a : VReg) (b : XOpnd) (s : State) : Host.Outcome State Fault Refusal :=
  issue userOnly [wV d 1, rV a 1, rX b] s fun s =>
    vec2 s d a b (fun x y => x >>> bits y 0 5)

/-- 10 R247. -/
def execVsra (d : VReg) (a : VReg) (b : XOpnd) (s : State) : Host.Outcome State Fault Refusal :=
  issue userOnly [wV d 1, rV a 1, rX b] s fun s =>
    vec2 s d a b (fun x y => x.sshiftRight (bits y 0 5))

/-- 10 R247. -/
def execVmin (d : VReg) (a : VReg) (b : XOpnd) (s : State) : Host.Outcome State Fault Refusal :=
  issue userOnly [wV d 1, rV a 1, rX b] s fun s =>
    vec2 s d a b (fun x y => if x.slt y then x else y)

/-- 10 R247. -/
def execVminu (d : VReg) (a : VReg) (b : XOpnd) (s : State) : Host.Outcome State Fault Refusal :=
  issue userOnly [wV d 1, rV a 1, rX b] s fun s =>
    vec2 s d a b (fun x y => if x.ult y then x else y)

/-- 10 R247. -/
def execVmax (d : VReg) (a : VReg) (b : XOpnd) (s : State) : Host.Outcome State Fault Refusal :=
  issue userOnly [wV d 1, rV a 1, rX b] s fun s =>
    vec2 s d a b (fun x y => if x.slt y then y else x)

/-- 10 R247. -/
def execVmaxu (d : VReg) (a : VReg) (b : XOpnd) (s : State) : Host.Outcome State Fault Refusal :=
  issue userOnly [wV d 1, rV a 1, rX b] s fun s =>
    vec2 s d a b (fun x y => if x.ult y then y else x)

/-- 10 R247. -/
def execVabs (d : VReg) (a : VReg) (s : State) : Host.Outcome State Fault Refusal :=
  issue userOnly [wV d 1, rV a 1] s fun s =>
    vec1 s d a (fun x => if x.msb then 0 - x else x)

/-- 10 R247. -/
def execVneg (d : VReg) (a : VReg) (s : State) : Host.Outcome State Fault Refusal :=
  issue userOnly [wV d 1, rV a 1] s fun s =>
    vec1 s d a (fun x => 0 - x)

/-- 10 R247. -/
def execVclz (d : VReg) (a : VReg) (s : State) : Host.Outcome State Fault Refusal :=
  issue userOnly [wV d 1, rV a 1] s fun s =>
    vec1 s d a (fun x => BitVec.ofNat 32 (clz 32 x.toNat))

/-- 10 R247. -/
def execVpopc (d : VReg) (a : VReg) (s : State) : Host.Outcome State Fault Refusal :=
  issue userOnly [wV d 1, rV a 1] s fun s =>
    vec1 s d a (fun x => BitVec.ofNat 32 (popc 32 x.toNat))

/-- 10 R247. -/
def execVbrev (d : VReg) (a : VReg) (s : State) : Host.Outcome State Fault Refusal :=
  issue userOnly [wV d 1, rV a 1] s fun s =>
    vec1 s d a (fun x => BitVec.ofNat 32 (brev 32 x.toNat))

/-- 10 R248. -/
def execVbfe (d : VReg) (a : VReg) (b : XOpnd) (s : State) : Host.Outcome State Fault Refusal :=
  issue userOnly [wV d 1, rV a 1, rX b] s fun s =>
    vec2 s d a b vbfe

/-- 10 R248. -/
def execVbfeu (d : VReg) (a : VReg) (b : XOpnd) (s : State) : Host.Outcome State Fault Refusal :=
  issue userOnly [wV d 1, rV a 1, rX b] s fun s =>
    vec2 s d a b vbfeu

/-- 10 R248. -/
def execVbfi (d : VReg) (a : VReg) (b : XOpnd) (s : State) : Host.Outcome State Fault Refusal :=
  issue userOnly [mV d 1, rV a 1, rX b] s fun s =>
    vec3 s d a b vbfi

/-- 10 R247. -/
def execVadd64 (d : VReg) (a : VReg) (b : XOpnd) (s : State) : Host.Outcome State Fault Refusal :=
  issue userOnly [wV d 2, rV a 2, rX64 b] s fun s =>
    pair2 s d a b (fun x y => x + y)

/-- 10 R247. -/
def execVsub64 (d : VReg) (a : VReg) (b : XOpnd) (s : State) : Host.Outcome State Fault Refusal :=
  issue userOnly [wV d 2, rV a 2, rX64 b] s fun s =>
    pair2 s d a b (fun x y => x - y)

/-- 10 R247. -/
def execVmul64 (d : VReg) (a : VReg) (b : XOpnd) (s : State) : Host.Outcome State Fault Refusal :=
  issue userOnly [wV d 2, rV a 2, rX64 b] s fun s =>
    pair2 s d a b (fun x y => x * y)

/-- 10 R247. -/
def execVshl64 (d : VReg) (a : VReg) (b : XOpnd) (s : State) : Host.Outcome State Fault Refusal :=
  issue userOnly [wV d 2, rV a 2, rX64 b] s fun s =>
    pair2 s d a b (fun x y => x <<< bits y 0 6)

/-- 10 R247. -/
def execVshr64 (d : VReg) (a : VReg) (b : XOpnd) (s : State) : Host.Outcome State Fault Refusal :=
  issue userOnly [wV d 2, rV a 2, rX64 b] s fun s =>
    pair2 s d a b (fun x y => x >>> bits y 0 6)

/-- 10 R247. -/
def execVsra64 (d : VReg) (a : VReg) (b : XOpnd) (s : State) : Host.Outcome State Fault Refusal :=
  issue userOnly [wV d 2, rV a 2, rX64 b] s fun s =>
    pair2 s d a b (fun x y => x.sshiftRight (bits y 0 6))

/-- 10 R247. -/
def execVdp4 (d : VReg) (a : VReg) (b : XOpnd) (s : State) : Host.Outcome State Fault Refusal :=
  issue userOnly [mV d 1, rV a 1, rX b] s fun s =>
    vec3 s d a b (dp4 fun v => sextInt 8 v)

/-- 10 R247. -/
def execVdp4u (d : VReg) (a : VReg) (b : XOpnd) (s : State) : Host.Outcome State Fault Refusal :=
  issue userOnly [mV d 1, rV a 1, rX b] s fun s =>
    vec3 s d a b (dp4 fun v => Int.ofNat v)

/-- 10 R247: bits and P unchanged -/
def execVmov (d : VReg) (a : XOpnd) (s : State) : Host.Outcome State Fault Refusal :=
  issue userOnly [wV d 1, rX a] s fun s =>
    vecWrite s d fun t L => t.getX a L

/-- 10 R249. -/
def execVmovi (d : VReg) (i : BitVec 20) (s : State) : Host.Outcome State Fault Refusal :=
  issue userOnly [wV d 1] s fun s =>
    vecWrite s d fun _ _ => ⟨BitVec.ofInt 32 (sextInt 20 i.toNat), false⟩

end Sys2Proof.Machine
end

