-- ==== Sys2Proof/Machine/Fp.lean ====
section
/-! DEFINITION. Number formats and exact arithmetic with one rounding (08 R196 to R213): every value is a sign, a mantissa
and a power of two, computed exactly and rounded at the end. -/
namespace Sys2Proof.Machine

/-- How a format encodes what is not finite: as IEEE 754, a NaN but no infinity, neither (08 R196, R201, R202). -/
inductive FKind where
  | ieee | nanOnly | finite
deriving DecidableEq, Repr

/-- A binary format: exponent and significand bits, bias, class of events (08 R209), default NaN, poison value. -/
structure Fmt where
  eb : Nat
  mb : Nat
  bias : Nat
  kind : FKind
  cls : Nat
  nan : Nat
  poison : Option Nat
deriving DecidableEq, Repr

def f64 : Fmt := ⟨11, 52, 1023, .ieee, 0, 0x7FF8000000000000, some 0x7FF8000000005A5A⟩
def f32 : Fmt := ⟨8, 23, 127, .ieee, 1, 0x7FC00000, some 0x7FC05A5A⟩
def f16 : Fmt := ⟨5, 10, 15, .ieee, 2, 0x7E00, some 0x7E5A⟩
def bf16 : Fmt := ⟨8, 7, 127, .ieee, 3, 0x7FC0, some 0x7FDA⟩
def e4m3 : Fmt := ⟨4, 3, 7, .nanOnly, 4, 0x7F, none⟩
def e5m2 : Fmt := ⟨5, 2, 15, .ieee, 4, 0x7E, none⟩
def e3m2 : Fmt := ⟨3, 2, 3, .finite, 5, 0, none⟩

/-- The bits of the largest finite magnitude. -/
def Fmt.maxBits (f : Fmt) : Nat :=
  match f.kind with
  | .ieee => (2 ^ f.eb - 1) * 2 ^ f.mb - 1
  | .nanOnly => 2 ^ (f.eb + f.mb) - 2
  | .finite => 2 ^ (f.eb + f.mb) - 1
def Fmt.infBits (f : Fmt) : Nat := (2 ^ f.eb - 1) * 2 ^ f.mb
def Fmt.width (f : Fmt) : Nat := 1 + f.eb + f.mb
def Fmt.signBit (f : Fmt) : Nat := 2 ^ (f.eb + f.mb)
/-- The exponent of the smallest subnormal. -/
def Fmt.emin (f : Fmt) : Int := 1 - Int.ofNat f.bias - Int.ofNat f.mb
/-- The poison value's bits, or zero in a format that has none (08 R207). -/
def Fmt.poisonBits (f : Fmt) : Nat := f.poison.getD 0

/-- A value: NaN, an infinity, or ± m × 2^e. -/
inductive FVal where
  | nan | inf (neg : Bool) | fin (neg : Bool) (m : Nat) (e : Int)
deriving DecidableEq, Repr

/-- The value of a code (08 R196, R201, R202). -/
def Fmt.value (f : Fmt) (w : Nat) : FVal :=
  let neg := w / 2 ^ (f.eb + f.mb) % 2 == 1
  let e := w / 2 ^ f.mb % 2 ^ f.eb
  let m := w % 2 ^ f.mb
  let num : FVal := if e == 0 then .fin neg m f.emin else .fin neg (2 ^ f.mb + m) (f.emin + Int.ofNat (e - 1))
  match f.kind with
  | .ieee => if e == 2 ^ f.eb - 1 then (if m == 0 then .inf neg else .nan) else num
  | .nanOnly => if e == 2 ^ f.eb - 1 && m == 2 ^ f.mb - 1 then .nan else num
  | .finite => num

def Ev.none : Ev := ⟨0, 0, 0, 0⟩
def Ev.add (a b : Ev) : Ev := ⟨a.nan + b.nan, a.inf + b.inf, a.ovf + b.ovf, a.unf + b.unf⟩

/-- Rounding modes (08 R198). -/
def RNE : BitVec 2 := 0
def RTZ : BitVec 2 := 1
def RUP : BitVec 2 := 2
def RDN : BitVec 2 := 3

/-- Bit length. -/
def bitLen (n : Nat) : Nat := if n == 0 then 0 else n.log2 + 1

/-- Whether a magnitude keep + rem / 2^sh is rounded up. -/
def roundUp (rm : BitVec 2) (neg : Bool) (keep rem half : Nat) : Bool :=
  if rem == 0 then false
  else if rm == RNE then half < rem || (rem == half && keep % 2 == 1)
  else if rm == RTZ then false
  else if rm == RUP then !neg else neg

/-- ± m × 2^e rounded once to a format (08 R199), with the OVF, INF and UNF events of a result from finite inputs. -/
def Fmt.round (f : Fmt) (rm : BitVec 2) (neg : Bool) (m : Nat) (e : Int) : Nat × Ev :=
  let sign := if neg then f.signBit else 0
  if m == 0 then (sign, Ev.none)
  else
    let len := Int.ofNat (bitLen m)
    -- far beyond either end of every format: the exponent no longer matters
    let e := if e + len > 20000 then 20000 - len else if e + len < -20000 then -20000 - len else e
    let q := max (e + len - Int.ofNat (f.mb + 1)) f.emin
    let (keep, rem, half) :=
      if q ≤ e then (m * 2 ^ (e - q).toNat, 0, 1)
      else
        let sh := (q - e).toNat
        (m / 2 ^ sh, m % 2 ^ sh, 2 ^ (sh - 1))
    let keep' := if roundUp rm neg keep rem half then keep + 1 else keep
    let code := (q - f.emin).toNat * 2 ^ f.mb + keep'
    let small := e + len ≤ f.emin + Int.ofNat f.mb && rem != 0
    if f.maxBits < code then
      let inf := f.kind == .ieee && (rm == RNE || (rm == RUP && !neg) || (rm == RDN && neg))
      (sign + (if inf then f.infBits else f.maxBits), ⟨0, inf.toNat, 1, 0⟩)
    else (sign + code, ⟨0, 0, 0, small.toNat⟩)

/-- A result in a format: NaN gives the default NaN and counts NAN when no input is one; an infinity stands, and counts INF
when no input is one (08 R200, R209); a target without infinities takes its largest finite value (10 R253). -/
def Fmt.result (f : Fmt) (rm : BitVec 2) (x : FVal) (nanIn infIn : Bool) : Nat × Ev :=
  match x with
  | .nan => (f.nan, if nanIn then Ev.none else ⟨1, 0, 0, 0⟩)
  | .inf neg =>
    let sign := if neg then f.signBit else 0
    if f.kind == .ieee then (sign + f.infBits, if infIn then Ev.none else ⟨0, 1, 0, 0⟩)
    else (sign + f.maxBits, ⟨0, 0, 1, 0⟩)
  | .fin neg m e => f.round rm neg m e

def FVal.isNan : FVal → Bool
  | .nan => true
  | _ => false
def FVal.isInf : FVal → Bool
  | .inf _ => true
  | _ => false
def FVal.neg? : FVal → Bool
  | .nan => false
  | .inf n | .fin n _ _ => n
def FVal.negate : FVal → FVal
  | .nan => .nan
  | .inf n => .inf !n
  | .fin n m e => .fin (!n) m e
def FVal.isZero : FVal → Bool
  | .fin _ 0 _ => true
  | _ => false

/-- The exact product; 0 × ∞ is NaN (10 R251). -/
def FVal.mul : FVal → FVal → FVal
  | .nan, _ | _, .nan => .nan
  | .inf a, .inf b => .inf (a != b)
  | .inf a, .fin b m _ => if m == 0 then .nan else .inf (a != b)
  | .fin a m _, .inf b => if m == 0 then .nan else .inf (a != b)
  | .fin a m e, .fin b n k => .fin (a != b) (m * n) (e + k)

/-- ± m × 2^e as a multiple of 2^k, for k ≤ e. -/
def scaledTo (k : Int) (neg : Bool) (m : Nat) (e : Int) : Int :=
  let v : Int := Int.ofNat (m * 2 ^ (e - k).toNat)
  if neg then -v else v

/-- The least exponent among the non-zero terms. -/
def minExp : List FVal → Option Int
  | [] => none
  | .fin _ (_ + 1) e :: r => some (match minExp r with | none => e | some k => min e k)
  | _ :: r => minExp r

/-- The exact sum of terms, with NaN for unlike infinities and the zero sign of 08 R199. -/
def fsum (rm : BitVec 2) (ts : List FVal) : FVal :=
  if ts.any FVal.isNan then .nan
  else
    let infs := ts.filter FVal.isInf
    match infs with
    | i :: r => if r.any fun j => j.neg? != i.neg? then .nan else i
    | [] =>
      let zero : FVal :=
        if ts.all fun t => t.neg? then .fin true 0 0
        else if ts.all fun t => !t.neg? then .fin false 0 0
        else .fin (rm == RDN) 0 0
      match minExp ts with
      | none => zero
      | some k =>
        let sum := ts.foldl (fun (acc : Int) t => match t with
          | .fin n m e => if m == 0 then acc else acc + scaledTo k n m e
          | _ => acc) 0
        if sum == 0 then .fin (rm == RDN) 0 0
        else .fin (decide (sum < 0)) sum.natAbs k

/-- Largest r with r × r ≤ n, searched over the bits below i. -/
def isqrtBits : Nat → Nat → Nat → Nat
  | 0, r, _ => r
  | i + 1, r, n => if (r + 2 ^ i) * (r + 2 ^ i) ≤ n then isqrtBits i (r + 2 ^ i) n else isqrtBits i r n
def isqrt (n : Nat) : Nat := isqrtBits (bitLen n / 2 + 1) 0 n

/-- A value with a truncated tail: the tail stands as an odd last bit, which no tie of a format reaches. -/
def sticky (m : Nat) (inexact : Bool) : Nat := 2 * m + inexact.toNat

/-- The quotient (10 R250, R251). -/
def FVal.div : FVal → FVal → FVal
  | .nan, _ | _, .nan => .nan
  | .inf _, .inf _ => .nan
  | .inf a, .fin b _ _ => .inf (a != b)
  | .fin a _ _, .inf b => .fin (a != b) 0 0
  | .fin a m e, .fin b n k =>
    if n == 0 then (if m == 0 then .nan else .inf (a != b))
    else .fin (a != b) (sticky (m * 2 ^ 128 / n) (m * 2 ^ 128 % n != 0)) (e - k - 129)

/-- m × 2^e with an even exponent. -/
def evenExp (m : Nat) (e : Int) : Nat × Int := if e % 2 == 0 then (m, e) else (2 * m, e - 1)

/-- The square root (10 R250, R251). -/
def FVal.sqrt : FVal → FVal
  | .nan => .nan
  | .inf n => if n then .nan else .inf false
  | .fin n m e =>
    if m == 0 then .fin n 0 0 else if n then .nan
    else
      let (m, e) := evenExp m e
      let x := m * 2 ^ 128
      let r := isqrt x
      .fin false (sticky r (r * r != x)) (e / 2 - 65)

/-- 1 ÷ √A (10 R250, R251). -/
def FVal.rsqrt : FVal → FVal
  | .nan => .nan
  | .inf n => if n then .nan else .fin false 0 0
  | .fin n m e =>
    if m == 0 then .inf n else if n then .nan
    else
      let (m, e) := evenExp m e
      let x := 2 ^ 256 / m
      let r := isqrt x
      .fin false (sticky r (r * r * m != 2 ^ 256)) (-(e / 2) - 129)

/-- Rounded to an integral value, the sign kept (10 R250, R251). -/
def FVal.rint (rm : BitVec 2) : FVal → FVal
  | .fin n m e =>
    if 0 ≤ e then .fin n m e
    else
      let sh := min (-e).toNat 4000
      let keep := m / 2 ^ sh
      .fin n (if roundUp rm n keep (m % 2 ^ sh) (2 ^ (sh - 1)) then keep + 1 else keep) 0
  | x => x

/-- A × 2^n (10 R250 VFSCALE); n beyond 10,000 either way no longer matters. -/
def FVal.scale (x : FVal) (n : Int) : FVal :=
  match x with
  | .fin s m e => .fin s m (e + max (-10000) (min 10000 n))
  | x => x

/-- An integer as a value. -/
def FVal.ofInt (i : Int) : FVal := .fin (decide (i < 0)) i.natAbs 0

/-- a < b for numbers; −0 equals +0 (10 R259). -/
def FVal.lt (a b : FVal) : Bool :=
  match a, b with
  | .nan, _ | _, .nan => false
  | .inf x, .inf y => x && !y
  | .inf x, _ => x
  | _, .inf y => !y
  | .fin x m e, .fin y n k =>
    let q := min e k
    decide (scaledTo q x m e < scaledTo q y n k)
def FVal.eq (a b : FVal) : Bool := !a.isNan && !b.isNan && !a.lt b && !b.lt a

/-! ### Elementary functions to 320 bits (10 R255) -/

/-- ln 2 × 2^320, rounded down. -/
def ln2Fix : Nat := 0xb17217f7d1cf79abc9e3b39803f2f6af40f343267298b62d8a0d175b8baafa2be7b876206debac98
/-- π × 2^320, rounded down. -/
def piFix : Nat := 0x3243f6a8885a308d313198a2e03707344a4093822299f31d0082efa98ec4e6c89452821e638d01377

/-- Σ of y^k ÷ k! in fixed point of 320 bits: `t` is the k-th term. -/
def expSeries : Nat → Nat → Nat → Nat → Nat
  | 0, _, _, _ => 0
  | n + 1, k, t, y => t + expSeries n (k + 1) (t * y / 2 ^ 320 / (k + 1)) y
/-- Alternating Σ of z^(2j + odd) ÷ (2j + odd)!: sine and cosine in fixed point of 320 bits. -/
def trigSeries : Nat → Nat → Int → Nat → Int
  | 0, _, _, _ => 0
  | n + 1, k, t, z2 => t + trigSeries n (k + 2) (-(t * Int.ofNat z2 / 2 ^ 320 / Int.ofNat ((k + 1) * (k + 2)))) z2
/-- Σ of w^(2j+1) ÷ (2j + 1): the inverse hyperbolic tangent in fixed point of 320 bits. -/
def atanhSeries : Nat → Nat → Nat → Nat → Nat
  | 0, _, _, _ => 0
  | n + 1, k, t, w2 => t / k + atanhSeries n (k + 2) (t * w2 / 2 ^ 320) w2

/-- x × 2^320 rounded down, for a dyadic x. -/
def fix (m : Nat) (e : Int) : Nat :=
  if 0 ≤ e + 320 then m * 2 ^ (e + 320).toNat else m / 2 ^ (-(e + 320)).toNat

/-- 2^A (10 R255). -/
def FVal.exp2 : FVal → FVal
  | .nan => .nan
  | .inf n => if n then .fin false 0 0 else .inf false
  | .fin n m e =>
    if m == 0 then .fin false 1 0
    else if 12 < e + Int.ofNat (bitLen m) then (if n then .fin false 1 (-10000) else .fin false 1 10000)
    else
      let x : Int := if n then -Int.ofNat (fix m e) else Int.ofNat (fix m e)
      let whole := x / 2 ^ 320
      let frac := (x % 2 ^ 320).toNat
      if frac == 0 then .fin false 1 whole
      else .fin false (sticky (expSeries 72 0 (2 ^ 320) (frac * ln2Fix / 2 ^ 320)) true) (whole - 321)

/-- log2 A (10 R255). -/
def FVal.log2 : FVal → FVal
  | .nan => .nan
  | .inf n => if n then .nan else .inf false
  | .fin n m e =>
    if m == 0 then .inf true else if n then .nan
    else
      let k := Int.ofNat (bitLen m) - 1
      let z := fix m (-k)
      if z == 2 ^ 320 then FVal.ofInt (e + k)
      else
        let w := (z - 2 ^ 320) * 2 ^ 320 / (z + 2 ^ 320)
        let l := 2 * atanhSeries 110 1 w (w * w / 2 ^ 320) * 2 ^ 320 / ln2Fix
        let v : Int := (e + k) * 2 ^ 320 + Int.ofNat l
        .fin (decide (v < 0)) (sticky v.natAbs true) (-321)

/-- |A| mod 2 in fixed point, when |A| is below 2^40; an A at or beyond it is an even integer in FP32. -/
def mod2 (m : Nat) (e : Int) : Nat := if 40 < e then 0 else fix m e % 2 ^ 321

/-- sin(π z) for 0 ≤ z ≤ 1/2, and cos(π z), in fixed point. -/
def sinFix (z : Nat) : Int :=
  let y := z * piFix / 2 ^ 320
  trigSeries 60 1 (Int.ofNat y) (y * y / 2 ^ 320)
def cosFix (z : Nat) : Int :=
  let y := z * piFix / 2 ^ 320
  trigSeries 60 0 (2 ^ 320) (y * y / 2 ^ 320)

/-- sin(π × A) (10 R255): an integer A gives a zero with A's sign. -/
def FVal.sinpi : FVal → FVal
  | .nan | .inf _ => .nan
  | .fin n m e =>
    let r := mod2 m e
    let half := 2 ^ 319
    if r % 2 ^ 320 == 0 then .fin n 0 0
    else
      let neg := if 2 ^ 320 < r then !n else n
      let z := r % 2 ^ 320
      let z := if half < z then 2 ^ 320 - z else z
      if z == half then .fin neg 1 0
      else if z ≤ half / 2 then .fin neg (sticky (sinFix z).toNat true) (-321)
      else .fin neg (sticky (cosFix (half - z)).toNat true) (-321)

/-- cos(π × A) (10 R255): an odd multiple of 0.5 gives +0. -/
def FVal.cospi : FVal → FVal
  | .nan | .inf _ => .nan
  | .fin _ m e =>
    let r := mod2 m e
    let half := 2 ^ 319
    let z := if 2 ^ 320 < r then 2 ^ 321 - r else r
    if z == half then .fin false 0 0
    else if z == 0 then .fin false 1 0
    else if z == 2 ^ 320 then .fin true 1 0
    else
      let neg := decide (half < z)
      let z := if half < z then 2 ^ 320 - z else z
      if z ≤ half / 2 then .fin neg (sticky (cosFix z).toNat true) (-321)
      else .fin neg (sticky (sinFix (half - z)).toNat true) (-321)

/-! ### Lanes -/

/-- An FP operand as a lane reads it: its value, and whether it is poisoned (08 R206). -/
structure FIn where
  bits : Nat
  v : FVal
  p : Bool
deriving DecidableEq, Repr

def Fmt.read (f : Fmt) (w : Nat) (p : Bool) : FIn := ⟨w, f.value w, p || f.poison == some w⟩

/-- A rounded result of an operation on operands: poison first (08 R207), else the rounded value with its events. -/
def Fmt.op (f : Fmt) (rm : BitVec 2) (ins : List FIn) (x : FVal) : Nat × Bool × Ev :=
  if ins.any FIn.p then (f.poisonBits, true, Ev.none)
  else
    let r := f.result rm x (ins.any fun i => i.v.isNan) (ins.any fun i => i.v.isInf)
    (r.1, false, r.2)

/-- A saturating add to one exception counter, with the crossing of its threshold; of the crossings of one tick the
lowest-numbered names the kernel (08 R210). -/
def fxCount (s : State) (slot : Nat) (kentry : Dword) (n : Nat) (k : Nat) : State :=
  if k == 0 then s
  else
    let fx := (s.ctx slot).fx
    let old := (fx.cnt.getD n 0).toNat
    let new := min (old + k) 0xFFFFFFFF
    let thr := bits fx.ctl 0 32
    let cross := thr != 0 && decide (old < thr) && decide (thr ≤ new) && !bit fx.stat n
    let lower := match fx.kentAt with
      | some (t, b) => t == s.now && decide (b < n)
      | none => false
    let names := cross && !lower
    let s := s.modCtx slot fun c => { c with fx := { fx with
      cnt := setAt fx.cnt n (BitVec.ofNat 32 new)
      stat := if cross then putBit fx.stat n true else fx.stat
      kent := if names then kentry else fx.kent
      kentAt := if names then some (s.now, n) else fx.kentAt } }
    if cross && fx.stat == 0 && bit fx.ctl 63 then hostEvent s slot 0 0 else s

/-- Count the events of a format class for a context entry (08 R210). -/
def countFor (s : State) (slot : Nat) (kentry : Dword) (cls : Nat) (e : Ev) : State :=
  let s := fxCount s slot kentry (4 * cls + 3) e.unf
  let s := fxCount s slot kentry (4 * cls + 2) e.ovf
  let s := fxCount s slot kentry (4 * cls + 1) e.inf
  fxCount s slot kentry (4 * cls) e.nan
/-- Count the events of an instruction of the thread that is checked out. -/
def countEvents (s : State) (cls : Nat) (e : Ev) : State :=
  if e == Ev.none then s
  else countFor s (s.slotOf s.cur) (((s.gridOf s.cur).map fun g => g.r.kentry).getD 0) cls e

/-- The events of the active lanes of an instruction. -/
def laneEvents (t : Thread) (f : Nat → Nat × Bool × Ev) : Ev :=
  (lanesOf t.mask).foldl (fun e L => e.add (f L).2.2) Ev.none
/-- Write FP32 results lane by lane and count their events. -/
def fpWrite (s : State) (d : VReg) (cls : Nat) (f : Thread → Nat → Nat × Bool × Ev) : Res :=
  let t := s.cur
  .ok (countEvents { s with cur := t.putV d fun L => ⟨BitVec.ofNat 32 (f t L).1, (f t L).2.1⟩ } cls (laneEvents t (f t)))
/-- Write FP64 results lane by lane and count their events. -/
def fpWrite2 (s : State) (d : VReg) (cls : Nat) (f : Thread → Nat → Nat × Bool × Ev) : Res :=
  let t := s.cur
  .ok (countEvents { s with cur := t.putV2 d fun L => ⟨BitVec.ofNat 64 (f t L).1, (f t L).2.1⟩ } cls (laneEvents t (f t)))

/-- A, B and D of a lane in FP32. -/
def a32 (t : Thread) (a : VReg) (L : Nat) : FIn := f32.read (t.getV a L).v.toNat (t.getV a L).p
def b32 (t : Thread) (b : XOpnd) (L : Nat) : FIn := f32.read (t.getX b L).v.toNat (t.getX b L).p
/-- A, B and D of a lane in FP64. -/
def a64 (t : Thread) (a : VReg) (L : Nat) : FIn := f64.read (t.getV2 a L).v.toNat (t.getV2 a L).p
def b64 (t : Thread) (b : XOpnd) (L : Nat) : FIn := f64.read (t.getX64 b L).v.toNat (t.getX64 b L).p

/-- The lesser (or the greater) under 10 R251: a NaN yields to a number, −0 is below +0; no events. -/
def Fmt.minmax (f : Fmt) (greater : Bool) (a b : FIn) : Nat × Bool × Ev :=
  if a.p || b.p then (f.poisonBits, true, Ev.none)
  else if a.v.isNan && b.v.isNan then (f.nan, false, Ev.none)
  else if a.v.isNan then (b.bits, false, Ev.none)
  else if b.v.isNan then (a.bits, false, Ev.none)
  else
    let aLess := a.v.lt b.v || (a.v.eq b.v && a.v.neg? && !b.v.neg?)
    (if aLess != greater then a.bits else b.bits, false, Ev.none)
/-- A bit operation on an FP value: the poison value for a poisoned input, no events (10 R251). -/
def Fmt.sign (f : Fmt) (ins : List FIn) (w : Nat) : Nat × Bool × Ev :=
  if ins.any FIn.p then (f.poisonBits, true, Ev.none) else (w, false, Ev.none)
/-- Rounded to an integral value: no events (10 R251). -/
def Fmt.integral (f : Fmt) (rm : BitVec 2) (a : FIn) : Nat × Bool × Ev :=
  let r := f.op rm [a] (a.v.rint rm)
  (r.1, r.2.1, Ev.none)

/-- A to an integer by a rounding mode, saturated to [lo, hi]; a NaN gives 0 (10 R253). -/
def toIntSat (rm : BitVec 2) (lo hi : Int) (x : FVal) : Int :=
  match x with
  | .nan => 0
  | .inf n => if n then lo else hi
  | .fin _ m e =>
    -- beyond 2^200 either way the value saturates
    if 200 < e + Int.ofNat (bitLen m) && m != 0 then (if x.neg? then lo else hi)
    else match x.rint rm with
      | .fin n m e => max lo (min hi (scaledTo 0 n m e))
      | _ => 0

/-- One level of the tree of 08 R213. -/
def treeLevel (rm : BitVec 2) : List (Nat × Bool × Ev) → List (Nat × Bool × Ev)
  | x :: y :: r =>
    let a := f32.read x.1 x.2.1
    let b := f32.read y.1 y.2.1
    let z := f32.op rm [a, b] (fsum rm [a.v, b.v])
    (z.1, z.2.1, (x.2.2.add y.2.2).add z.2.2) :: treeLevel rm r
  | r => r
/-- VFRED.ADD (08 R213): 128 leaves, seven levels, nearest even whatever FPCR holds. -/
def fredTree (leaf : Nat → Option Lane) : Lane × Ev :=
  let leaves := (List.range 128).map fun L =>
    match (if L < 96 then leaf L else none) with
    | some x => (x.v.toNat, x.p, Ev.none)
    | none => (0, false, Ev.none)
  let lv := treeLevel RNE
  match lv (lv (lv (lv (lv (lv (lv leaves)))))) with
  | x :: _ => (⟨BitVec.ofNat 32 x.1, x.2.1⟩, x.2.2)
  | [] => (Lane.zero, Ev.none)

end Sys2Proof.Machine
end

