-- ==== Sys2Proof/Machine/Atom.lean ====
section
/-! DEFINITION. What an atomic does at one instant (11 R273, R275, R276, R278), and what a write does to a line (11 R272). -/
namespace Sys2Proof.Machine

/-- FP32 or FP64 by the size of an atomic. -/
def atomFmt (size : Nat) : Fmt := if size == 8 then f64 else f32
/-- Whether the operation is one on floating point. -/
def atomIsFp : AtomOp → Bool
  | .fadd | .fmin | .fmax => true
  | _ => false
/-- RNE(M + V) with its events (11 R273). -/
def atomFadd (size m v : Nat) : Nat × Bool × Ev :=
  let f := atomFmt size
  let x := f.read m false
  let y := f.read v false
  f.op RNE [x, y] (fsum RNE [x.v, y.v])
/-- The new memory value for clean operands, and whether it is poisoned. -/
def atomNew (op : AtomOp) (size m v new : Nat) : Nat × Bool :=
  let w := 8 * size
  let f := atomFmt size
  match op with
  | .add => ((m + v) % 2 ^ w, false)
  | .min => (if sextInt w v < sextInt w m then v else m, false)
  | .max => (if sextInt w m < sextInt w v then v else m, false)
  | .minu => (min m v, false)
  | .maxu => (max m v, false)
  | .and => (m &&& v, false)
  | .or => (m ||| v, false)
  | .xor => (m ^^^ v, false)
  | .swap => (v, false)
  | .cas => (if m == v then new else m, false)
  | .fadd => let r := atomFadd size m v; (r.1, r.2.1)
  | .fmin => let r := f.minmax false (f.read m false) (f.read v false); (r.1, r.2.1)
  | .fmax => let r := f.minmax true (f.read m false) (f.read v false); (r.1, r.2.1)

/-- An atomic on a line: the new line, its PSN, and what the lane receives (11 R273, R275). -/
def atomApply (r : AtomReq) (d : LineData) (psn : Bool) : LineData × Bool × SVal :=
  let m := lineGet d r.off r.size
  let v := r.opnd.toNat % 256 ^ r.size
  let put (x : Nat) : LineData := lineMerge d (lineAt r.off r.size x) (maskAt r.off r.size)
  let old : Dword := BitVec.ofNat 64 m
  if r.psn || psn then
    if atomIsFp r.op then
      let p := (atomFmt r.size).poisonBits
      (put p, psn, ⟨BitVec.ofNat 64 p, true⟩)
    else (d, true, ⟨0, true⟩)
  else
    let n := atomNew r.op r.size m v (r.new.toNat % 256 ^ r.size)
    if n.2 then
      let p := (atomFmt r.size).poisonBits
      (put p, psn, ⟨BitVec.ofNat 64 p, true⟩)
    else (put n.1, psn, ⟨old, false⟩)

/-- A write on a line: marked bytes and PSN, or an atomic; the value an atomic returns (11 R272, 05 R140). -/
def writeLine (atom : Option AtomReq) (data : LineData) (mask : LineMask) (setPsn : Bool) (d : LineData) (psn : Bool) :
    LineData × Bool × SVal :=
  match atom with
  | some r => atomApply r d psn
  | none => (lineMerge d data mask, setPsn || (psn && mask != fullMask), SVal.zero)

end Sys2Proof.Machine
end

