-- ==== Sys2Proof/Machine/Regread.lean ====
section
/-! DEFINITION. Reading package register space (17 R365): what each register holds, reserved fields zero (00 R6). -/
namespace Sys2Proof.Machine

/-- The registers in the page of a package context entry (08 R210; the ports read zero, 06 R166, 13 R313). Those of a
context that is not loaded are in its block (log 27). -/
def ctxRegRead (s : State) (slot o : Nat) : Nat :=
  let c := s.ctx slot
  if c.status != .loaded then 0
  else if 0x100 ≤ o && o < 0x1C0 then (c.fx.cnt.getD ((o - 0x100) / 8) 0).toNat
  else match o with
    | 0x1C0 => c.fx.ctl.toNat
    | 0x1C8 => c.fx.stat.toNat
    | 0x1D0 => c.fx.kent.toNat
    | _ => 0

/-- The register at an offset that is a multiple of 8 (17 R365); none while a load of TLBICMD waits (17 R366). -/
def regRead (s : State) (off : Nat) : Option Nat :=
  if off < 0x40000 then some (ctxRegRead s (off / 0x1000) (off % 0x1000))
  else if 0x104000 ≤ off && off < 0x106000 then some (s.celltab.getD ((off - 0x104000) / 8) 0).toNat
  else if 0x102000 ≤ off && off < 0x102800 then some (s.cstate.getD ((off - 0x102000) / 8) 0).toNat
  else if 0x101000 ≤ off && off < 0x1011E0 then some (s.ppmask.getD ((off - 0x101000) / 8) 0).toNat
  else if 0x100200 ≤ off && off < 0x100300 then
    some (bits (s.meas.getD ((off - 0x100200) / 32) 0) (off % 32 * 8) 64)
  else if 0x100060 ≤ off && off < 0x100090 then some (s.ages.getD ((off - 0x100060) / 8) 0).toNat
  else match off with
    | 0x100000 => some s.spancfg.toNat
    | 0x100008 => some s.evcmd.toNat
    | 0x100010 => some s.ctxcmd.toNat
    | 0x100020 => some s.pgcmd.toNat
    | 0x100028 =>
      -- BUSY and ACTIVE (05 R142)
      some (s.migctl.toNat + (if s.moves.isEmpty then 0 else 8 + (s.moves.length - 1) * 2))
    | 0x100030 => if s.tlbiOpen.isEmpty then some 1 else none
    | 0x100038 => some s.tlbiva.toNat
    | 0x100040 => some s.rascnt.toNat
    | 0x100048 => some (((s.raslog.head?.map fun e => e.w0.toNat).getD 0) + s.rasovf.toNat * 2 ^ 62)
    | 0x100050 => some ((s.raslog.head?.map fun e => e.w1.toNat).getD 0)
    | 0x100090 => some s.pwrctl.toNat
    | 0x100098 => some s.evstat.toNat
    | 0x1000A0 => some s.evdest.toNat
    | 0x100100 => some s.migbpt.toNat
    | 0x100108 => some s.migfree.toNat
    | 0x100110 => some s.migfht.toNat
    | 0x100118 => some s.migrel.toNat
    | 0x100120 => some s.migrht.toNat
    | 0x100300 => some (s.attcmd &&& 0x40000000FFFFFFFF).toNat
    | 0x100308 => some s.attbuf.toNat
    | _ => some 0

end Sys2Proof.Machine
end

