-- ==== Sys2Proof/Machine/L2.lean ====
section
/-! DEFINITION. The package L2 and the requester's side of coherence: lines, leases, victims (02 R58 to R60), requests to
homes with their timers (05 R126, R127, R134 to R136), reads and writes at a slice (03 R68, R82, R83, 01 R31). -/
namespace Sys2Proof.Machine

/-! ### Lines -/

/-- The endpoint of a line, PA[51:42]. -/
def lineEp (line : Nat) : Nat := line / 2 ^ 35
/-- The line's offset at its endpoint. -/
def lineOff (line : Nat) : Nat := line % 2 ^ 35 * 128
/-- A line of this package's Spaind memory (01 R27). -/
def isLocal (s : State) (line : Nat) : Bool := lineEp line == s.self && decide (lineOff line < 2 ^ 39)
/-- PA[51:16] of the line's page. -/
def pageOf (line : Nat) : Nat := line / 512
/-- A line of package register space, at any package: uncached (01 R27). -/
def isRegLine (s : State) (line : Nat) : Bool := !isHost s (lineEp line) && decide (2 ^ 39 ≤ lineOff line)
/-- A package's own register line. -/
def ownReg (s : State) (line : Nat) : Bool := isRegLine s line && lineEp line == s.self
/-- The page's index in its package. -/
def pageIdx (line : Nat) : Nat := line % 2 ^ 35 / 512
/-- The slice of a line (02 R58). -/
def sliceOf (line : Nat) : Nat :=
  let f (k : Nat) : Nat := line / 2 ^ k % 64
  f 5 ^^^ f 11 ^^^ f 17 ^^^ f 23 ^^^ f 29 ^^^ f 35 ^^^ (line / 2 ^ 41 % 16)
/-- The set of a line in its slice (02 R58). -/
def setOf (line : Nat) : Nat := line / 2 ^ 11 % 64 * 32 + line % 32

def memLine (s : State) (line : Nat) : LineData := BitVec.ofNat 1024 (Mem.load s.mem (lineOff line) 128)
def memPut (s : State) (line : Nat) (d : LineData) : State := { s with mem := Mem.store s.mem (lineOff line) 128 d.toNat }
def metaOf (s : State) (line : Nat) : Dword := assoc s.meta_ line
def metaPut (s : State) (line : Nat) (w : Dword) : State := { s with meta_ := assocSet s.meta_ line w }
/-- PSN of a line homed here (02 R63). -/
def homePsn (s : State) (line : Nat) : Bool := bit (metaOf s line) 15
def homeSetPsn (s : State) (line : Nat) (b : Bool) : State := metaPut s line (putBit (metaOf s line) 15 b)
/-- A page that is moving (05 R145). -/
def moving (s : State) (line : Nat) : Bool := s.moves.any fun m => m.page == pageOf line

/-- An endpoint whose messages are discarded: not a member, or of a DEAD cell, or another cell's when this package has
isolated itself (05 R123, R138, R139). -/
def shunned (s : State) (ep : Nat) : Bool :=
  !present s ep || deadCell s (cellOf s ep) || (s.isolated && cellOf s ep != cellOf s s.self)
/-- An endpoint cannot be reached for ever: its cell is DEAD, or this package has isolated itself (05 R136, R138). -/
def epLost (s : State) (ep : Nat) : Bool :=
  let c := cellOf s ep
  deadCell s c || (s.isolated && c != cellOf s s.self)
/-- The home endpoint of a line cannot be reached. -/
def homeLost (s : State) (line : Nat) : Bool := epLost s (lineEp line)

/-! ### Tags -/

/-- The tick from which a line homed here may be written again: a home performs one write to a line in a tick (03 R69), and a
load of the tick of a write comes after it (02 R59), so that none has been performed before. -/
def nextWrite (s : State) (line : Nat) : Nat := ((s.written.find? fun w => w.1 == line).map Prod.snd).getD 0
/-- A line homed here has been read or written at this tick. -/
def markUse (s : State) (line : Nat) : State :=
  { s with written := (line, s.now + 1) :: s.written.filter fun w => w.1 != line && s.now < w.2 }

/-- The tag of a copy: the tracked one, or the untracked one of a context entry. -/
def L2Line.is (L : L2Line) (line : Nat) (unt : Option Nat) : Bool := L.line == line && L.unt.map Prod.fst == unt
def State.l2get (s : State) (line : Nat) (unt : Option Nat) : Option L2Line := s.l2.find? fun L => L.is line unt
def State.l2mod (s : State) (line : Nat) (unt : Option Nat) (f : L2Line → L2Line) : State :=
  { s with l2 := s.l2.map fun L => if L.is line unt then f L else L }
def State.l2drop (s : State) (line : Nat) (unt : Option Nat) : State := { s with l2 := s.l2.filter fun L => !L.is line unt }
/-- The list holds the most recently used line first. -/
def State.l2touch (s : State) (line : Nat) (unt : Option Nat) : State :=
  match s.l2get line unt with
  | some L => { s with l2 := L :: s.l2.filter fun K => !K.is line unt }
  | none => s

/-! ### Requests beyond the package -/

def linkUp (s : State) (port : Nat) : Bool := (s.links.getD port (false, 0)).1
/-- The port that a path to a package of a span uses (17 R364). -/
def pathPort (s : State) (span pkg path : Nat) : Nat :=
  match s.routes.find? fun r => r.1 == span * 1024 + pkg && r.2.1 == path with
  | some r => r.2.2
  | none => (Config.freePort (span * 1024 + pkg) path).val
/-- The paths to a package: those of the routing table whose link is up (05 R148, 16 R359, 17 R364). -/
def pathsTo (s : State) (span pkg : Nat) : List Nat := (List.range 4).filter fun p => linkUp s (pathPort s span pkg p)
/-- Send a request to a package or a host: with no path left it is lost, and its timer ends it (17 R364). -/
def State.sayTo (s : State) (span ep : Nat) (m : OutMsg) : State := if (pathsTo s span ep).isEmpty then s else s.say m

/-- Send a request to a line's home and start its timer (05 R127, R134). -/
def sendReq (s : State) (slot : Nat) (kind : HomeKind) (line : Nat) (cen : Bool) (data : LineData) (mask : LineMask)
    (psn : Bool) (atom : Option AtomReq) (unt : Bool) (for_ : ReqFor) : State :=
  let (id, s) := s.fresh
  let r : HomeReq := ⟨id, s.self, line, cen, data, mask, psn, atom, unt⟩
  let due := s.now + (s.ctx slot).timeout
  let s : State := { s with reqs := s.reqs ++ [⟨id, lineEp line, kind, line, due, for_, r, false, false, false⟩] }
  (s.sayTo (spanId s) (lineEp line) (.home (lineEp line) kind r)).post due (.requestTimeout id)

/-- The copy of a line that a request asks for: tracked, or untracked for a context entry. -/
def OutReq.copyOf (r : OutReq) : Option (Option Nat) :=
  match r.for_ with
  | .line slot nc => some (if nc then some slot else none)
  | _ => none
/-- Requests that write or take ownership (05 R132). -/
def HomeKind.owning : HomeKind → Bool
  | .rdx | .upg | .wrf | .atf => true
  | _ => false
/-- Whether a copy of a line is already asked for; a PRF may be answered SKIP, and serves nothing else (05 R127). -/
def asked (s : State) (line : Nat) (unt : Option Nat) : Bool :=
  s.reqs.any fun r => !r.ended && r.line == line && r.kind != .prf && r.copyOf == some unt
/-- A request for ownership of a line that has still to be answered. -/
def ownAsked (s : State) (line : Nat) : Bool :=
  s.reqs.any fun r => !r.ended && !r.held && r.line == line && r.copyOf.isSome && r.kind.owning
/-- A write-back, a far write or a far atomic of a line that has left and is still to be acknowledged. The package asks for no
copy of the line meanwhile: one that the home sent before it performed the write would outlive it (05 R129). -/
def farOpen (s : State) (line : Nat) : Bool :=
  s.reqs.any fun r => !r.ended && !r.held && !r.waits && r.line == line && match r.for_ with
    | .write _ | .untracked _ | .writeback => true
    | _ => false
/-- The same of one that has still to leave. -/
def outOpen (s : State) (line : Nat) : Bool :=
  farOpen s line || s.reqs.any fun r => !r.ended && r.waits && r.line == line

/-- Ask a home for a copy of a line, once. -/
def askLine (s : State) (slot line : Nat) (nc cen : Bool) (kind : HomeKind) : State :=
  if outOpen s line || asked s line (if nc then some slot else none) then s
  else sendReq s slot kind line cen 0 0 false none nc (.line slot nc)

/-- At a tick, look again at everything that waits on a line: loads of each core, waiting writes, recalls, the home's queue. -/
def pokeAt (s : State) (line tick : Nat) : State :=
  let s := (List.range s.cores.length).foldl (fun s c =>
    if (s.core c).loads.any fun l => l.line == line then s.post tick (.l2LoadAnswer c line) else s) s
  s.post tick (.leaseExpiry line)
def pokeLine (s : State) (line : Nat) : State := pokeAt s line s.now

/-- Reads of a home whose answers are not to be used any more: what waits on their lines asks again. An answer that comes
late is discarded (05 R135). -/
def disown (s : State) (f : OutReq → Bool) : State :=
  let mine (r : OutReq) : Bool := !r.ended && (r.kind == .rds || r.kind == .ntr || r.kind == .prf) && r.copyOf.isSome
    && !isRegLine s r.line && f r
  let lines := (s.reqs.filter mine).map OutReq.line
  lines.foldl pokeLine { s with reqs := s.reqs.map fun r => if mine r then { r with ended := true } else r }

/-! ### The predictor (03 R83) -/

def predictIdx (line : Nat) : Nat := line % 4096
def predictOf (s : State) (line : Nat) : Nat :=
  ((s.predict.find? fun p => p.slice == sliceOf line && p.index == predictIdx line).map fun p => p.n.toNat).getD 0
def predictSet (s : State) (line n : Nat) : State :=
  let rest := s.predict.filter fun p => !(p.slice == sliceOf line && p.index == predictIdx line)
  { s with predict := if n == 0 then rest else ⟨sliceOf line, predictIdx line, BitVec.ofNat 2 n⟩ :: rest }
/-- The slice gives up M or E of a line, to a recall or by eviction. -/
def predictTrain (s : State) (L : L2Line) (recalled : Bool) : State :=
  if L.unt.isSome || !(L.st == .m || L.st == .e) then s
  else
    let n := predictOf s L.line
    if s.now < L.gained + 1000 then (if recalled then predictSet s L.line (min 3 (n + 1)) else s)
    else predictSet s L.line (n - 1)

/-! ### Victims (02 R60) -/

/-- A write is performed, or a copy by which one elsewhere would be noticed has gone: the after conditions of the grids that wait
are read again (06 R162). -/
def afterPoke (s : State) : State :=
  s.grids.foldl (fun s g =>
    if g.stage == .waiting && g.after.any (fun a => !a.sat) then s.post s.now (.afterConditionRead g.id) else s) s

/-- The package's tracked copy of a line goes, from the L2 and from every L1, so that no lease outlives it. -/
def dropTracked (s : State) (line : Nat) : State :=
  afterPoke (State.l2drop { s with
    cores := s.cores.map fun k => { k with l1 := k.l1.filter fun x => x.line != line || x.unt.isSome } } line none)
/-- Write-backs of untracked lines that have still to leave: they do when no other request of the line is out and this package's
own tracked copy is gone, written back first if it is dirty (01 R32, 05 R129). -/
def untrackedGo (s : State) (line : Nat) : State :=
  let mine := s.reqs.filter fun r => !r.ended && r.waits && r.line == line
  if mine.isEmpty || farOpen s line || ownAsked s line then s
  else
    let slot := match mine.head?.map OutReq.for_ with
      | some (.untracked k) => k
      | _ => 0
    match (s.l2get line none).filter fun L => L.st == .m || L.st == .o with
    | some L => sendReq (dropTracked (predictTrain s L false) line) slot .wbk line false L.data fullMask L.psn none false .writeback
    | none =>
      let s := disown (dropTracked s line) fun r => r.line == line && r.copyOf == some none
      mine.foldl (fun (s : State) r =>
        let due := s.now + (match r.for_ with
          | .untracked k => (s.ctx k).timeout
          | _ => 0)
        let s : State := { s with reqs := s.reqs.map fun q => if q.id == r.id then { q with waits := false, due := due } else q }
        (s.sayTo (spanId s) r.ep (.home r.ep r.kind r.req)).post due (.requestTimeout r.id)) s
/-- Write back the dirty bytes of a line that a context entry holds untracked (01 R32). -/
def sendUntracked (s : State) (slot : Nat) (L : L2Line) (mask : LineMask) : State :=
  let (id, s) := s.fresh
  let r : HomeReq := ⟨id, s.self, L.line, false, L.data, mask, L.psn, none, true⟩
  untrackedGo { s with reqs := s.reqs ++ [⟨id, lineEp L.line, .wrf, L.line, 0, .untracked slot, r, false, false, true⟩] } L.line
/-- Something that a line waited on at its home is over: what waits on it is looked at again. -/
def lineOver (s : State) (line : Nat) : State := untrackedGo (pokeLine s line) line

/-- Write back and drop a line. DESIGN CHOICE: a write-back is timed by the remote timeout of the context that makes the line
leave (log 72). -/
def evictLine (s : State) (slot : Nat) (L : L2Line) : State :=
  let s := predictTrain s L false
  let unt := L.unt.map Prod.fst
  let s := match L.unt with
    | some (owner, dm) => if dm == 0 then s else sendUntracked s owner L dm
    | none =>
      match L.st with
      | .dirty => memPut s L.line L.data
      | .m | .o => sendReq s slot .wbk L.line false L.data fullMask L.psn none false .writeback
      | _ => s
  afterPoke (s.l2drop L.line unt)

/-- Arrivals wait for a line of the block of a parked context, in which they are to be recorded (13 R315). -/
def blockWaits (s : State) (line : Nat) : Bool :=
  s.ctxs.any fun c => c.status == .parked && !c.arrivals.isEmpty && c.block / 128 ≤ line && line < c.block / 128 + 32
/-- Whether a write waits on a copy: at its slice, or at the home for the home's own leases (02 R59). -/
def writeWaits (s : State) (line : Nat) (unt : Option Nat) : Bool :=
  (s.l2w.any fun w => w.line == line && (if w.nc && !isLocal s line then some w.slot else none) == unt)
    || unt.isNone && ((s.home.any fun t => t.req.line == line && t.kind.owning) || blockWaits s line)

/-- A way for a new line: none while every way of the set is held by a lease or a waiting write. -/
def l2Way (s : State) (slot line : Nat) : Option State :=
  let here := s.l2.filter fun L => sliceOf L.line == sliceOf line && setOf L.line == setOf line
  if here.length < 16 then some s
  else match here.reverse.find? fun L => L.exp ≤ s.now && !writeWaits s L.line (L.unt.map Prod.fst) with
    | some L => some (evictLine s slot L)
    | none => none

/-- Put a new line into the L2, as the most recently used, or as the next victim (11 R271). -/
def l2Fill (s : State) (slot : Nat) (L : L2Line) (last : Bool) : Option State :=
  (l2Way s slot L.line).map fun s => { s with l2 := if last then s.l2 ++ [L] else L :: s.l2 }

/-! ### The page record (02 R64) -/

def pageRec (s : State) (idx : Nat) : Dword := assoc s.pages idx
def pagePut (s : State) (idx : Nat) (w : Dword) : State := { s with pages := assocSet s.pages idx w }
def pclass (s : State) (line : Nat) : Nat := bits (pageRec s (pageIdx line)) 8 4
/-- A class admits a cell; the home's own cell and class 0 always (05 R131). -/
def admits (s : State) (cls cell : Nat) : Bool :=
  cls == 0 || cell == cellOf s s.self || bit (s.ppmask.getD ((cls - 1) * 4 + cell / 64) 0) (cell % 64)
/-- Count one request of a cell for a page whose leaf has CEN = 1; a proposal to move follows (05 R144), to a cell that is
ALIVE, or SUSPECT, which counts as ALIVE (05 R124). DEDUCED: the request by which a new cell replaces CELLB counts in CNTB, as the
first of its own (log 81). -/
def pageCount (s : State) (line cell : Nat) (cen : Bool) : State :=
  if !cen then s
  else
    let idx := pageIdx line
    let w := pageRec s idx
    let up (n : Nat) : Nat := min 4095 (n + 1)
    let a := bits w 56 8
    let na := bits w 44 12
    let b := bits w 36 8
    let nb := bits w 24 12
    let w' :=
      if cell == cellOf s s.self then putBits w 12 12 (up (bits w 12 12))
      else if cell == a then putBits w 44 12 (up na)
      else
        let (b, nb) := if cell == b then (b, up nb) else if nb == 0 then (cell, 1) else (b, nb - 1)
        if na < nb then putBits (putBits (putBits (putBits w 56 8 b) 44 12 nb) 36 8 a) 24 12 na
        else putBits (putBits w 36 8 b) 24 12 nb
    let s := pagePut s idx w'
    let thr := max 1 (bits s.migctl 16 12)
    let ca := bits w' 56 8
    if bit s.migctl 0 && thr ≤ bits w' 44 12 && 4 * bits w' 12 12 < bits w' 44 12 && (cellState s ca == 1 || cellState s ca == 2)
        && admits s (bits w' 8 4) ca && s.moves.length < 4 && !moving s line then
      s.post s.now (.migrationStart (.own (pageOf line)))
    else s

/-! ### ECC (16 R357) -/

/-- A read of a Spaind line: whether it can go on; a corrected one is counted, the first uncorrectable read makes the line busy
and is retried after 100 ticks. -/
def eccRead (s : State) (line : Nat) : Bool × State :=
  if s.eccBusy.contains line then (false, s)
  else if s.eccFix.contains line then (true, rasCount { s with eccFix := s.eccFix.filter fun l => l != line } 40 24)
  else if s.ecc.any fun e => e.1 == line then
    (false, State.post { s with eccBusy := line :: s.eccBusy } (s.now + 100) (.eccRetry line))
  else (true, s)

/-- A request of the home's queue that waited behind a retry is served in the order of arrival (16 R357): while a write of the home
package that came before it waits at the slice, it is not begun. -/
def HomeTxn.behindWrite (t : HomeTxn) (s : State) : Bool :=
  t.busyTo != 0 && !t.begun && t.req.ep != s.self && s.l2w.any fun w => w.line == t.req.line && w.arrived ≤ t.arrived
/-- A write of the home package comes after a request that waited behind a retry with it, and arrived before it. -/
def L2Write.behindHome (w : L2Write) (s : State) : Bool :=
  s.home.any fun t => t.req.line == w.line && t.busyTo != 0 && !t.begun && t.req.ep != s.self && t.arrived < w.arrived
/-- A line that was busy with a retry is served in the order of arrival (16 R357): the loads that came before any write at this
tick, the writes a tick each from the next one on, and with each the loads that came between it and the next; the requests of other
endpoints in turn with the home package's writes. -/
def inArrivalOrder (s : State) (line : Nat) : State :=
  let s : State := { s with home := s.home.map fun t =>
    if t.req.line == line && t.req.ep != s.self && !t.begun then { t with busyTo := 1 } else t }
  let before (l : LoadReq) : Nat := (s.l2w.filter fun w => w.line == line && w.arrived ≤ l.at_).length
    + (s.home.filter fun t => t.req.line == line && (t.kind == HomeKind.wrf || t.kind == HomeKind.atf) && t.arrived ≤ l.at_).length
  let later (l : LoadReq) : LoadReq := if l.line == line && l.at_ ≤ s.now then { l with at_ := s.now + before l } else l
  (List.range s.cores.length).foldl (fun s c =>
    if (s.core c).loads.any fun l => l.line == line then
      let k := (s.core c).loads.map later
      k.foldl (fun (s : State) l => if l.line == line && s.now < l.at_ then s.post l.at_ (.l2LoadAnswer c line) else s)
        (s.modCore c fun x => { x with loads := k })
    else s) (markUse s line)

/-! ### Reads at a slice -/

/-- What a slice answers to a read. -/
inductive L2Ans where
  | data (d : LineData) (psn : Bool)
  | pending | lost
deriving DecidableEq, Repr

/-- Queue a local request at the home, once (05 R129). -/
def homeLocal (s : State) (kind : HomeKind) (line : Nat) : State :=
  if s.home.any fun t => t.req.line == line && t.kind == kind then s
  else
    let (id, s) := s.fresh
    let t : HomeTxn := ⟨id, kind, ⟨id, s.self, line, false, 0, 0, false, none, false⟩, [], false, 0, none, false, [], false, 0, none, false, s.now, false⟩
    State.post { s with home := s.home ++ [t] } s.now (.leaseExpiry line)

/-- A line of this package's memory at its slice, filled from Spaind (02 R58); with `last` as the next victim, which an access
by it does not change (11 R271). -/
def localLine (s : State) (slot line : Nat) (cen last : Bool) : Option L2Line × State :=
  if s.eccBusy.contains line then (none, s)
  else match s.l2get line none with
  | some L => (some L, if last then s else s.l2touch line none)
  | none =>
    match eccRead s line with
    | (false, s) => (none, s)
    | (true, s) =>
      let L : L2Line := ⟨line, .clean, none, 0, false, memLine s line, 0, 0⟩
      match l2Fill s slot L last with
      | some s => (some L, pageCount s line (cellOf s s.self) cen)
      | none => (none, pokeAt s line (s.now + 1))
/-- The line's directory entry could not be read: it is busy until the copies are recalled (05 R141). -/
def unreadable (s : State) (line : Nat) : Bool := s.home.any fun t => t.req.line == line && t.kind == .unread

/-- Read another package's register: the request names its bytes (17 R365, R366). -/
def regAsk (s : State) (slot line off n : Nat) : L2Ans × State :=
  match s.l2get line (some slot) with
  | some L => (.data L.data L.psn, s)
  | none =>
    if homeLost s line then (.lost, s)
    else if asked s line (some slot) then (.pending, s)
    else (.pending, sendReq s slot .ntr line false 0 (maskAt off n) false none true (.line slot true))

/-- Grant a lease to an L1: no later than the present one while a write waits (02 R59). -/
def grantLease (s : State) (slot line : Nat) (nc : Bool) : Nat × State :=
  let unt := if nc && !isLocal s line then some slot else none
  match s.l2get line unt with
  | none => (0, s)
  | some L =>
    if writeWaits s line unt then (L.exp, s)
    else
      let e := s.now + (s.ctx slot).lease
      (e, s.l2mod line unt fun L => { L with exp := max L.exp e })

/-! ### Writes at a slice -/

/-- The event of a store to package register space (17 R365), by register; `ep` is the storing endpoint. -/
def regEvent (off size : Nat) (w : Dword) (ep : Nat) : Instr :=
  let go := bit w 63
  let plain : Instr := .registerWrite off size w
  if off < 0x40000 && off % 0x1000 / 8 == 1 then .uiportStore (off / 0x1000) ep (if off % 8 == 0 then size else 0) w
  else if size != 8 || off % 8 != 0 then plain
  else if off < 0x40000 && off % 0x1000 == 0 then (if bit w 0 then .lportGraph (off / 0x1000) ep w else .lportLaunch (off / 0x1000) ep w)
  else if 0x102000 ≤ off && off < 0x102800 then
    match bits w 0 3 with
    | 0 => .cstateWriteFree ((off - 0x102000) / 8)
    | 1 => .cstateWriteAlive ((off - 0x102000) / 8)
    | 3 => .cstateWriteDead ((off - 0x102000) / 8)
    | _ => plain
  else if off == 0x100008 && go && bits w 60 2 == 1 then .evcmdEvict w
  else if off == 0x100008 && go && bits w 60 2 == 2 then .evcmdEnd w
  else if off == 0x100010 && go && bits w 60 2 == 1 then .ctxcmdLoad w
  else if off == 0x100010 && go && bits w 60 2 == 2 then .ctxcmdPark w
  else if off == 0x100010 && go && bits w 60 2 == 3 then .ctxcmdForget w
  else if off == 0x100018 && go && bits w 61 2 == 1 then .fqcmdReplay w
  else if off == 0x100018 && go && bits w 61 2 == 2 then .fqcmdDrop w
  else if off == 0x100020 && go then (if bit w 62 then .pgcmdSweep w else .pgcmdGo w)
  else if off == 0x100030 then .tlbicmdWrite w
  else if off == 0x100058 then .raspop
  else if off == 0x100300 && go then .attcmdGo w
  else plain
/-- The run of bytes that a mask marks: first byte and length; length 0 where it is no single run. -/
def maskRun (m : LineMask) : Nat × Nat :=
  let on := (List.range 128).filter fun i => m.getLsbD i
  match on with
  | [] => (0, 0)
  | a :: _ => (a, if maskAt a on.length == m then on.length else 0)
/-- The event of a line write to register space. -/
def regStore (line : Nat) (d : LineData) (m : LineMask) (ep : Nat) : Instr :=
  let (o, n) := maskRun m
  regEvent (lineOff line - 2 ^ 39 + o) n (BitVec.ofNat 64 (lineGet d o n)) ep
/-- The launch port that a store names, by package context entry (06 R166, 17 R365). -/
def portOf (line : Nat) (m : LineMask) : Option Nat :=
  let run := maskRun m
  let off := lineOff line - 2 ^ 39 + run.1
  if off < 0x40000 && off % 0x1000 == 0 && run.2 == 8 then some (off / 0x1000) else none
/-- A store comes to a launch port: it is performed after those that came before it, when the port has room and no command on the
context is in progress (06 R166, 20 R401). -/
def portQueue (s : State) (slot : Nat) (p : PortStore) : State := s.modCtx slot fun c => { c with ports := c.ports ++ [p] }

/-- A write goes to the home: always, or as the predictor says; an access of the device goes near (03 R83: timing only). -/
def L2Write.goesFar (w : L2Write) (s : State) : Bool :=
  w.far || isRegLine s w.line || (!isHost s (lineEp w.line) && 2 ≤ predictOf s w.line && (match w.who with
    | .device _ => false
    | _ => true))

/-- What became of a write that tried. -/
inductive WAns where
  /-- performed now; what an atomic returns -/
  | done (r : SVal)
  /-- not before a tick -/
  | wait (t : Nat)
  | pending
  /-- answered RETRY-MIGRATING (05 R145) -/
  | moving
  | lost
deriving DecidableEq, Repr

/-- The bytes a write touches. -/
def L2Write.bytes (w : L2Write) : LineMask :=
  match w.atom with
  | some r => maskAt r.off r.size
  | none => w.mask

/-- Try to perform a write that is first on its line. -/
def l2TryWrite (s : State) (w : L2Write) : WAns × State :=
  if ownReg s w.line then
    -- an atomic does not reach a register (17 R365)
    if w.atom.isSome then (.done ⟨0, false⟩, s)
    else match portOf w.line w.mask with
    | some slot =>
      let v : Dword := BitVec.ofNat 64 (lineGet w.data (maskRun w.mask).1 8)
      -- an access of the device itself does not wait
      if w.who == .device 0 then (.done ⟨0, false⟩, portQueue s slot ⟨s.self, v, .none⟩)
      else if w.asked then (.pending, s)
      else
        let s : State := { s with l2w := s.l2w.map fun x => if x.id == w.id then { x with asked := true } else x }
        (.pending, portQueue s slot ⟨s.self, v, .write w.id⟩)
    | none => (.done ⟨0, false⟩, s.postFirst (regStore w.line w.data w.mask s.self))
  else if isLocal s w.line then
    if moving s w.line then (.moving, s)
    else if unreadable s w.line || w.behindHome s then (.pending, s)
    else if bits (metaOf s w.line) 62 2 != 0 then (.pending, homeLocal s .localWrite w.line)
    else match localLine s w.slot w.line w.cen w.last with
      | (none, s) => (.pending, s)
      | (some L, s) =>
        let first := max (max w.arrived L.wrote) (max L.exp (nextWrite s w.line))
        if s.now < first then (.wait first, s)
        else
          let (d, psn, r) := writeLine w.atom w.data w.mask w.psn L.data (homePsn s w.line)
          (.done r, homeSetPsn ((markUse s w.line).l2mod w.line none fun L => { L with data := d, st := .dirty, wrote := s.now + 1 }) w.line psn)
  else
    let unt := if w.nc then some w.slot else none
    match s.l2get w.line unt with
    | some L =>
      if (w.nc || L.st == .m || L.st == .e) && !w.far then
        -- a write that arrives after a recall waits (05 R130)
        if s.recalls.any fun p => p.r.line == w.line && p.at_ < w.arrived && !w.nc then (.pending, s)
        else if s.now < max (max w.arrived L.wrote) L.exp then (.wait (max (max w.arrived L.wrote) L.exp), s)
        else
          let (d, psn, r) := writeLine w.atom w.data w.mask w.psn L.data L.psn
          let s := s.l2mod w.line unt fun L => { L with
            data := d, wrote := s.now + 1, psn := psn, st := .m, unt := L.unt.map fun u => (u.1, u.2 ||| w.bytes) }
          (.done r, if w.last then s else s.l2touch w.line unt)
      else if w.asked then (.pending, s)
      else if homeLost s w.line then (.lost, s)
      else if w.goesFar s then
        -- far: this package's own copy goes first (05 R129)
        if s.now < L.exp then (.wait L.exp, s)
        else
          let s := evictLine s w.slot L
          if outOpen s w.line then (.pending, s) else (.pending, far s)
      else (.pending, askLine s w.slot w.line false w.cen .upg)
    | none =>
      if w.asked then (.pending, s)
      else if homeLost s w.line then (.lost, s)
      else if w.nc && !w.far && !isRegLine s w.line then (.pending, askLine s w.slot w.line true w.cen .ntr)
      else if outOpen s w.line then (.pending, s)
      else if w.goesFar s then (.pending, far s)
      else (.pending, askLine s w.slot w.line false w.cen .rdx)
where
  /-- Send a write to be performed at the home; the home invalidates the copy of this package too, also one that it has
  still to send (05 R129). -/
  far (s : State) : State :=
    let s := disown s fun r => r.line == w.line && r.copyOf == some none
    let s : State := { s with l2w := s.l2w.map fun v => if v.id == w.id then { v with asked := true } else v }
    sendReq s w.slot (if w.atom.isSome then .atf else .wrf) w.line w.cen w.data w.mask w.psn w.atom false (.write w.id)

/-- Freeze a copy with a CAUSE, for the move of a page or not: it starts again at the unit it was landing (04 R106). One that is
to be aborted has nothing under way any more. -/
def freezeFor (s : State) (id : Nat) (cause : Byte) (unit : Nat) (page : Option Nat) : State :=
  (s.modCopy id fun c => if c.aborting.isSome then { c with sent := [], reading := [], carry := [] }
    else { c with frozen := some cause, onMove := page, sent := [], reading := [], carry := [], next := min c.next unit }).post
    s.now (.copyUnitLand id)
def freezeCopy (s : State) (id : Nat) (cause : Byte) (unit : Nat) : State := freezeFor s id cause unit none
/-- A tail stamp that stands in a store buffer entry fails: its copy is frozen or aborted (04 R109). -/
def stampFails (s : State) (e : SbEntry) (code : Nat) : State :=
  e.from_.foldl (fun (s : State) x => match s.copy? x.uid with
    | some c =>
      if code == REMOTE_TIMEOUT || code == PAGE_FAULT then
        freezeCopy (s.modCopy c.id fun c => { c with faultAddr := some (c.ext.getD 2 0) }) c.id (BitVec.ofNat 8 code) c.next
      else abortCopy (s.modCopy c.id fun c => { c with sent := [] }) c.id (BitVec.ofNat 8 code)
    | none => s) s

/-- The contributions of a store buffer entry, to their threads' log entries. -/
def sbLanes (s : State) (e : SbEntry) (f : LaneMask → LogEntry → LogEntry) : State :=
  e.from_.foldl (fun s c => s.modThread c.uid fun t => t.modEntry c.entry (f c.lanes)) s

/-- Lanes fault: TRAPADDR is each lane's own address (11 R266). -/
def LogEntry.fault (e : LogEntry) (lanes : LaneMask) (code detail : Nat) : LogEntry :=
  { e with
    flight := e.flight &&& ~~~lanes
    moving := e.moving &&& ~~~lanes
    faults := (lanesOf (lanes &&& e.unperformed &&& ~~~e.faulted)).foldl
      (fun fs L => insert (L, ⟨code, detail, e.addrs.getD L 0⟩) fs) e.faults }
where
  insert (x : Nat × Trap) : List (Nat × Trap) → List (Nat × Trap)
    | [] => [x]
    | y :: r => if x.1 < y.1 then x :: y :: r else y :: insert x r

def Core.dropSb (c : Core) (id : Nat) : Core := { c with sb := c.sb.filter fun e => e.id != id }

/-! ### Stores that fault (02 R56, R57, 03 R70, R74) -/

/-- The bytes of one lane of a store in its line. -/
def LogEntry.laneBytes (x : LogEntry) (L n : Nat) : LineData × LineMask :=
  let off := (x.addrs.getD L 0).toNat % 128
  (lineAt off n (x.data.getD L 0).toNat, maskAt off n)
/-- The log entry of a contribution, of a thread that runs or is saved. -/
def State.entryOf (s : State) (c : Contrib) : Option LogEntry :=
  (s.anyThread? c.uid).bind fun t => t.log.find? fun x => x.id == c.entry
/-- The bytes that a contribution brings to an entry of the store buffer: of a store's lanes, or of a copy's tail stamp. -/
def contribBytes (s : State) (e : SbEntry) (c : Contrib) : LineData × LineMask :=
  match s.entryOf c with
  | some x => match x.op with
    | .store n _ => (lanesOf c.lanes).foldl (fun r L =>
        let b := x.laneBytes L n
        (lineMerge r.1 b.1 b.2, r.2 ||| b.2)) (0, 0)
    | _ => (0, 0)
  | none => match (s.copies ++ s.saved.flatMap SavedCluster.copies).find? fun k => k.id == c.uid with
    | some k => (e.data, maskAt ((k.ext.getD 2 0).toNat % 128) 8)
    | none => (0, 0)
/-- What stays of a store buffer entry for a contribution that is not performed: its bytes, handed to the replay buffer (02 R56). -/
def SbEntry.hand (e : SbEntry) (s : State) (c : Contrib) : SbEntry :=
  let b := contribBytes s e c
  { e with id := 0, data := b.1, mask := b.2, last := false, sent := true, from_ := [c], onMove := none, again := false, handed := true
           also := [] }
/-- A younger access of a lane that an entry carries. -/
def Contrib.youngerOf (c : Contrib) (e : SbEntry) : Bool :=
  e.from_.any fun b => b.uid == c.uid && b.entry < c.entry && b.lanes &&& c.lanes != 0
/-- A younger store or atomic of a lane whose older one has faulted is not performed before it (03 R74): its lane is taken back from
an entry of the same line, to be sent again in its turn. -/
def takeBack (core : Nat) (e : SbEntry) (s : State) (x : SbEntry) : State :=
  let back := x.from_.filter fun c => c.youngerOf e
  let stay := x.from_.filter fun c => !c.youngerOf e
  if x.handed || back.isEmpty then s
  else
    let kept := stay.foldl (fun (r : LineData × LineMask) c =>
      let b := contribBytes s x c
      (lineMerge r.1 b.1 b.2, r.2 ||| b.2)) (0, 0)
    let x' : SbEntry := { x with data := kept.1, mask := kept.2, from_ := stay }
    let hands := if x.atom.isSome then [] else back.map fun c => x.hand s c
    let put (k : SbEntry) : List SbEntry := if k.id != x.id then [k] else if stay.isEmpty then hands else x' :: hands
    let s := back.foldl (fun (s : State) c =>
      s.modThread c.uid fun t => t.modEntry c.entry fun y => { y with flight := y.flight &&& ~~~c.lanes, moving := y.moving &&& ~~~c.lanes })
      (s.post (s.now + 1) (.leaseExpiry x.line))
    let s := s.modCore core fun k => { k with sb := k.sb.flatMap put }
    { s with l2w := if stay.isEmpty then s.l2w.filter fun w => w.who != .sb core x.id else s.l2w.map fun w =>
      if w.who == .sb core x.id then { w with data := kept.1, mask := kept.2 } else w }
/-- An entry of the store buffer faults: the lanes that it carries do, the entry is handed to the replay buffer, where its bytes stay
visible, younger accesses of its lanes wait behind it, and a tail stamp in it fails. -/
def sbFail (s : State) (core : Nat) (e : SbEntry) (code detail : Nat) : State :=
  let younger := ((s.core core).sb.dropWhile fun x => x.id != e.id).drop 1
  let hands := if e.atom.isSome then [] else e.from_.map fun c => e.hand s c
  let s := sbLanes s e fun m x => x.fault m code detail
  let s := (younger.filter fun x => x.line == e.line).foldl (takeBack core e) s
  stampFails (s.modCore core fun k => { k with sb := k.sb.flatMap fun x => if x.id == e.id then hands else [x] }) e code

/-- A write leaves the queue of its line; the next may be performed a tick later (03 R69). -/
def l2Leave (s : State) (w : L2Write) : State :=
  let s : State := { s with l2w := s.l2w.filter fun v => v.id != w.id }
  let s := match s.l2w.find? fun v => v.line == w.line with
    | some v => s.post (s.now + 1) (.l2WritePerform v.id)
    | none => s
  if (s.recalls.any fun p => p.r.line == w.line) || s.home.any fun t => t.req.line == w.line then s.post s.now (.leaseExpiry w.line)
  else s

/-- A write of the device as what it writes and where, by its virtual address or else its line: so its writer knows it again (log
91). -/
def L2Write.asDevice (w : L2Write) : L2Write :=
  let w := { w with id := 0, arrived := 0, asked := false }
  if w.va == 0 then w else { w with line := 0, nc := false, cen := false }
/-- A write has been performed at tick T: its writer is told (02 R56, 04 R104). -/
def l2Done (s : State) (w : L2Write) (T : Nat) (r : SVal) : State :=
  let s := afterPoke (l2Leave s w)
  match w.who with
  | .sb core id =>
    (s.modCore core fun c => { c with sb := c.sb.map fun e =>
      if e.id == id && e.atom.isSome then { e with data := r.v.zeroExtend 1024, psn := r.p } else e }).post s.now
      (.storeBufferAnswer core id T)
  | .copy id unit => s.post s.now (.copyLineWritePerformed id unit)
  | .remote tag => State.post { s with jobs := s.jobs.map fun j => if j.1 == tag then (j.1, result j.2.1, 1) else j } (s.now + 1) (.leaseExpiry w.line)
  | .device _ => { s with devDone := (w.asDevice, r, s.now) :: s.devDone.filter fun d => d.1 != w.asDevice && s.now < d.2.2 + 2 ^ 20 }
  | .none => s
where
  result : RemoteJob → RemoteJob
    | .atom m => .atom { m with opnd := r.v, psn := r.p }
    | j => j

/-- A write ends with a fault: every instruction whose lanes it carries faults (05 R132, R135, R136), a copy is frozen or
aborted (04 R106, R107), a remote request is refused (01 R20). -/
def l2Fault (s : State) (w : L2Write) (code detail : Nat) : State :=
  let s := l2Leave s w
  match w.who with
  | .sb core id =>
    match (s.core core).sb.find? fun e => e.id == id with
    | some e => sbFail s core e code detail
    | none => s
  | .copy id unit =>
    if code == REMOTE_TIMEOUT then freezeCopy s id (BitVec.ofNat 8 code) unit else abortCopy (s.modCopy id fun c => { c with sent := [], carry := [] }) id (BitVec.ofNat 8 code)
  | .remote tag => State.post { s with jobs := s.jobs.map fun j => if j.1 == tag then (j.1, j.2.1, 2) else j } (s.now + 1) (.leaseExpiry w.line)
  | .device _ => { s with expired := (w.line, s.now, code) :: s.expired.filter fun e => e.1 != w.line && s.now < e.2.1 + 64 }
  -- a write of a cluster's image (15 R355)
  | .none => { s with saved := s.saved.map fun c => if c.writes.1 ≤ w.id && w.id < c.writes.2 then { c with failed := true } else c }

/-- A write meets a page that moves: a store buffer entry waits with its lanes in the replay buffer, and keeps its bytes for the
loads of its core (02 R57, 03 R70), a copy freezes with CAUSE 0x20 (05 R145); what another span asked for is translated afresh, and
what the device writes it translates and writes again. -/
def l2Moving (s : State) (w : L2Write) : State :=
  let s := l2Leave s w
  match w.who with
  | .sb core id =>
    match (s.core core).sb.find? fun e => e.id == id with
    | some e => (sbLanes s e fun m x => { x with flight := x.flight &&& ~~~m, moving := x.moving ||| m }).modCore core fun k =>
        { k with sb := k.sb.map fun x => if x.id == id then { x with onMove := some (pageOf w.line) } else x }
    | none => s
  | .copy id unit => freezeFor s id 0x20 unit (some (pageOf w.line))
  | .remote tag => State.post { s with jobs := s.jobs.map fun j => if j.1 == tag then (j.1, j.2.1, 3) else j } (s.now + Config.pollTicks) (.leaseExpiry w.line)
  | .device _ => s
  | .none => State.post { s with l2w := s.l2w ++ [{ w with arrived := s.now + Config.pollTicks, asked := false }] } (s.now + Config.pollTicks) (.l2WritePerform w.id)

/-- A write arrives at its slice (02 R59). -/
def l2Arrive (s : State) (w : L2Write) : State := State.post { s with l2w := s.l2w ++ [w] } w.arrived (.l2WritePerform w.id)

/-- L2 WRITE PERFORM (02 R59): only the first write on a line may be performed. -/
def l2WritePerform (s : State) (id : Nat) : State :=
  match s.l2w.find? fun w => w.id == id with
  | none => s
  | some w =>
    match s.l2w.find? fun v => v.line == w.line with
    | some v =>
      if v.id != id then s
      else match l2TryWrite s w with
        | (.done r, s) => l2Done s w s.now r
        | (.wait t, s) => s.post (max t (s.now + 1)) (.l2WritePerform id)
        | (.pending, s) => s
        | (.moving, s) => l2Moving s w
        | (.lost, s) => l2Fault s w HOME_LOST 0
    | none => s

end Sys2Proof.Machine
end

