-- ==== Sys2Proof/Machine/Home.lean ====
section
/-! DEFINITION. The home of the package's lines: its directory, requests and recalls (05 R125, R128 to R130, R132, R135,
R139 to R141), the package's own answers to recalls (05 R130), and the answers it receives (05 R127, R135). -/
namespace Sys2Proof.Machine

/-! ### The line metadata word (02 R63) -/

def dState (m : Dword) : Nat := bits m 62 2
def dOwner (m : Dword) : Nat := bits m 54 8
def dCoarse (m : Dword) : Bool := bit m 53
/-- The cells of the sharer set; a coarse bit stands for its octet. -/
def dCells (m : Dword) : List Nat :=
  if dCoarse m then (List.range 256).filter fun c => bit m (21 + c / 8)
  else (List.range (min 3 (bits m 51 2))).map fun i => bits m (43 - 8 * i) 8
/-- A metadata word: pointers in ascending order, or the coarse vector from a fourth cell until the line is UNC. -/
def dirWord (old : Dword) (st owner : Nat) (cells : List Nat) : Dword :=
  let psn := (bit old 15).toNat * 2 ^ 15
  if st == 0 then BitVec.ofNat 64 psn
  else
    let set := (List.range 256).filter fun c => cells.contains c
    let own := if 2 ≤ st then owner * 2 ^ 54 else 0
    let share :=
      if dCoarse old || 3 < set.length then
        2 ^ 53 + ((List.range 32).filter fun i => set.any fun c => c / 8 == i).foldl (fun a i => a + 2 ^ (21 + i)) 0
      else
        set.length * 2 ^ 51 + (mapFrom (fun i c => c * 2 ^ (43 - 8 * i)) 0 set).foldl (fun a x => a + x) 0
    BitVec.ofNat 64 (st * 2 ^ 62 + own + share + psn)
def dirSet (s : State) (line st owner : Nat) (cells : List Nat) : State :=
  metaPut s line (dirWord (metaOf s line) st owner cells)
def UNC : Nat := 0
def SHR : Nat := 1
def EXC : Nat := 2
def OWN : Nat := 3

/-! ### The line's data at its home -/

def homeData (s : State) (line : Nat) : LineData :=
  match s.l2get line none with
  | some L => L.data
  | none => memLine s line
/-- Memory made current from the home's own L2. -/
def homeSync (s : State) (line : Nat) : State :=
  match s.l2get line none with
  | some L => if L.st == .dirty then (memPut s line L.data).l2mod line none fun L => { L with st := .clean } else s
  | none => s
/-- Write a line at its home. -/
def homeStore (s : State) (line : Nat) (d : LineData) (psn : Bool) : State :=
  (homeSetPsn (memPut s line d) line psn).l2mod line none fun L => { L with data := d, st := .clean }
/-- The home's own copy goes when another cell gains ownership. -/
def homeDrop (s : State) (line : Nat) : State := (homeSync s line).l2drop line none
/-- The region of a line (02 R65). -/
def regionOf (line : Nat) : Nat := line % 2 ^ 35 / 2 ^ 14
def regionSet (s : State) (cell line : Nat) : State :=
  if s.regions.contains (cell, regionOf line) then s else { s with regions := (cell, regionOf line) :: s.regions }

/-! ### Requests at the home -/

/-- The endpoints of some cells that a recall goes to: members of live cells, the requester and the home apart
(05 R129; host endpoints as packages, log 10). A package that has isolated itself recalls nothing (05 R138, log 79). -/
def recallEps (s : State) (req : Nat) (cells : List Nat) : List Nat :=
  if s.isolated then [] else (List.range (bits s.spancfg 21 10 + 1)).filter fun e =>
    present s e && e != req && e != s.self && cells.contains (cellOf s e) && !deadCell s (cellOf s e)

/-- The recalls of a request: kind and cells (05 R129, R133, R140, R141). -/
def recallPlan (s : State) (t : HomeTxn) : Nat × List Nat :=
  let m := metaOf s t.req.line
  let st := dState m
  let o := dOwner m
  let S := dCells m
  let all := if 2 ≤ st then o :: S else S
  match t.kind with
  | .rds => if st == EXC then (1, [o]) else if st == OWN then (2, [o]) else (0, [])
  | .rdx | .upg => if st == EXC then (0, [o]) else (0, all)
  | .wrf | .atf | .localWrite => (0, all)
  | .ntr => if 2 ≤ st then (2, [o]) else (0, [])
  | .prf | .wbk => (0, [])
  | .localLoad => if 2 ≤ st then (3, [o]) else (0, [])
  | .sweep => if 2 ≤ st && !admits s (pclass s t.req.line) o then (0, all) else (0, [])
  | .dead c => (0, S.filter fun x => x != c)
  | .unread => (0, List.range 256)

/-- A request is finished; the last line of a sweep clears PGCMD.BUSY (05 R133). -/
def homeDropTxn (s : State) (id line : Nat) : State :=
  let swept := s.home.any fun t => t.id == id && t.kind == .sweep
  let home := s.home.filter fun t => t.id != id
  let pg := if swept && !(home.any fun t => t.kind == .sweep) then putBit s.pgcmd 61 false else s.pgcmd
  pokeLine { s with home := home, pgcmd := pg } line

def HomeTxn.answer (t : HomeTxn) (s : State) (kind : AnsKind) (data : LineData) (has psn : Bool) (res : Dword) : State :=
  s.say (.homeAns t.req.ep ⟨t.req.id, kind, data, has, psn, res⟩)

/-- A cancelled request, or one of a cell that died, whose recalls are answered: memory is written from a dirty answer, and
the line takes the state that describes the copies that are left (05 R135, R139). -/
def homeCancelled (s : State) (t : HomeTxn) : State :=
  let line := t.req.line
  let m := metaOf s line
  let o := dOwner m
  let c := cellOf s t.req.ep
  let s := match t.dirty with
    | some d => homeStore s line d t.dirtyPsn
    | none => s
  if !t.begun then s
  else match t.rkind with
    | 0 =>
      -- the requester's cell was not recalled, and a DEAD cell is skipped: it stays until the line becomes UNC (05 R129)
      let left := (dCells m).filter fun x => x == c || deadCell s x
      dirSet s line (if left.isEmpty then UNC else SHR) 0 left
    | 1 => match t.dirty with
      | some _ => dirSet s line OWN o (dCells m)
      | none => if t.kept.contains o then dirSet s line SHR 0 [o] else dirSet s line UNC 0 []
    | _ => s

/-- The line is still owned by a cell that died, and a request for it waits for the clean-up (05 R139, R140). -/
def ownerDied (s : State) (t : HomeTxn) : Bool :=
  let m := metaOf s t.req.line
  2 ≤ dState m && deadCell s (dOwner m) && (match t.kind with
    | .dead _ | .unread => false
    | _ => true)
/-- The clean-up of a line whose owner died goes before a request, which then begins again (05 R139, R140). -/
def cleanFirst (s : State) (t : HomeTxn) : State :=
  let (id, s) := s.fresh
  let r : HomeReq := ⟨id, s.self, t.req.line, false, 0, 0, false, none, false⟩
  let u : HomeTxn := ⟨id, .dead (dOwner (metaOf s t.req.line)), r, [], false, 0, none, false, [], false, 0, none, false, s.now, false⟩
  let t' := { t with begun := false, wait := [], dirty := none, kept := [] }
  State.post { s with home := s.home.flatMap fun x => if x.id == t.id then [u, t'] else [x] } s.now (.leaseExpiry t.req.line)

/-- A DEAD cell could have owned a line (05 R141). -/
def deadOwner (s : State) (line : Nat) : Bool := (List.range 256).any fun c => deadCell s c && s.regions.contains (c, regionOf line)
/-- Writes of the home package to a line that came before a request: they are performed before it (02 R59). -/
def HomeTxn.writesBefore (t : HomeTxn) (s : State) : Bool :=
  (t.kind == HomeKind.wrf || t.kind == HomeKind.atf)
    && s.l2w.any fun w => w.line == t.req.line && w.arrived < t.arrived && w.arrived ≤ s.now && !w.asked
/-- A request that writes, whose recalls are answered, lets the home package's earlier writes go first: no copy of the line is left. -/
def letWrite (s : State) (t : HomeTxn) : State :=
  let line := t.req.line
  let s := match t.dirty with
    | some d => homeStore s line d t.dirtyPsn
    | none => s
  let s := dirSet s line UNC 0 []
  let s : State := { s with home := s.home.map fun u => if u.id == t.id then { u with begun := true, dirty := none } else u }
  match s.l2w.find? fun w => w.line == line with
  | some w => (s.post s.now (.l2WritePerform w.id)).post (s.now + 1) (.leaseExpiry line)
  | none => s
/-- Perform a request once its recalls are answered (05 R129, R130). -/
def homeFinish (s : State) (t : HomeTxn) : State :=
  let line := t.req.line
  let m := metaOf s line
  let st := dState m
  let o := dOwner m
  let S := dCells m
  let c := cellOf s t.req.ep
  -- a write here, or a grant of ownership, comes after the home's own leases, and one write in a tick (02 R59, 03 R69)
  let from_ := match t.kind with
    | .rdx | .upg => ((s.l2get line none).map L2Line.exp).getD 0
    | .wrf | .atf | .dead _ => max (((s.l2get line none).map L2Line.exp).getD 0) (nextWrite s line)
    | _ => 0
  if ownerDied s t then cleanFirst s t
  else if t.dropped then homeDropTxn (homeCancelled s t) t.id line
  else if t.writesBefore s then letWrite s t
  else if s.now < from_ then
    State.post { s with home := s.home.map fun u => if u.id == t.id then { u with begun := true } else u } from_ (.leaseExpiry line)
  else if t.kind == .localWrite && t.write.isSome then
    if moving s line || !(s.l2w.any fun w => t.write == some w.id) then homeDropTxn s t.id line else s
  else if t.kind == .localLoad && t.busyTo != 0 then (if t.busyTo ≤ s.now then homeDropTxn s t.id line else s)
  else
    let base := t.dirty.getD (homeData s line)
    let psn := if t.dirty.isSome then t.dirtyPsn else homePsn s line
    let s := match t.kind with
      | .rds | .prf =>
        -- the home's own L2 keeps a line DIRTY (20 R392)
        let s :=
          if t.req.unt then s
          else if st == EXC then
            (if t.dirty.isSome then dirSet s line OWN o [c] else dirSet s line SHR 0 (c :: (if t.kept.contains o then [o] else [])))
          else if st == OWN then dirSet s line OWN o (c :: S)
          else dirSet s line SHR 0 (c :: S)
        t.answer (markUse s line) .data base true psn 0
      | .ntr => t.answer (markUse s line) .data base true psn 0
      | .rdx =>
        afterPoke (t.answer (regionSet (dirSet (homeDrop s line) line EXC c []) c line) .data base true psn 0)
      | .upg =>
        -- the owner's own data is newer than memory
        let has := t.dirty.isSome || !(st == OWN && o == c)
        afterPoke (t.answer (regionSet (dirSet (homeDrop s line) line EXC c []) c line) .grant base has psn 0)
      | .wrf | .atf =>
        let w := writeLine t.req.atom t.req.data t.req.mask t.req.psn base psn
        let s := afterPoke (dirSet (markUse (homeStore s line w.1 w.2.1) line) line UNC 0 [])
        if (t.kind == HomeKind.atf : Bool) then t.answer s .result 0 false w.2.2.p w.2.2.v else t.answer s .ack 0 false false 0
      | .localLoad =>
        if 2 ≤ st then
          let s := match t.dirty with
            | some d => homeStore s line d t.dirtyPsn
            | none => s
          dirSet s line SHR 0 (o :: S)
        else s
      | .localWrite =>
        let s := match t.dirty with
          | some d => homeStore s line d t.dirtyPsn
          | none => s
        dirSet s line UNC 0 []
      | .sweep =>
        if 2 ≤ st && !admits s (pclass s line) o then
          let s := match t.dirty with
            | some d => homeStore s line d t.dirtyPsn
            | none => s
          dirSet s line UNC 0 []
        else s
      | .dead d => if 2 ≤ st && o == d then dirSet (markUse (homeSetPsn s line true) line) line UNC 0 [] else s
      | .unread =>
        let s := match t.dirty with
          | some d => homeStore s line d false
          | none => homeSetPsn s line (t.req.psn || t.lostOwner)
        inArrivalOrder (dirSet s line UNC 0 []) line
      | .wbk => s
    let stay (s : State) (u : HomeTxn) : State := { s with home := s.home.map fun x => if x.id == t.id then u else x }
    match t.kind, s.l2w.find? fun (w : L2Write) => w.line == line with
    | .localLoad, _ => pokeLine ((stay s { t with begun := true, busyTo := s.now + 2 }).post (s.now + 2) (.leaseExpiry line)) line
    | .localWrite, some w => (stay s { t with begun := true, write := some w.id }).post s.now (.l2WritePerform w.id)
    | _, _ => homeDropTxn s t.id line

/-- Begin a request: refusal by class, a moving page, SKIP, its recalls (05 R129, R132, R145, 11 R283). -/
def homeBegin (s : State) (t : HomeTxn) : State :=
  let line := t.req.line
  let remote := t.req.ep != s.self
  let owning := remote && t.kind.owning
  if t.denied then
    homeDropTxn (t.answer s .denied 0 false false 0) t.id line
  else if owning && moving s line then
    let note (m : Move) : Move :=
      if m.page == pageOf line && !m.waiters.contains t.req.ep then { m with waiters := t.req.ep :: m.waiters } else m
    homeDropTxn (State.say { s with moves := s.moves.map note } (.retryMigrating t.req.ep t.req.id)) t.id line
  else if t.kind == .prf && 2 ≤ dState (metaOf s line) then
    homeDropTxn (t.answer s .skip 0 false false 0) t.id line
  else if ownerDied s t then cleanFirst s t
  else
    let unread := match t.kind with
      | .unread => true
      | _ => false
    -- the directory is read with its check also where the home's own L2 has the data (16 R357)
    match (if unread then (true, s) else eccRead s line) with
    | (false, s) => s
    | (true, s) =>
      let (k, cells) := recallPlan s t
      let eps := if t.kind == .prf then [] else recallEps s t.req.ep cells
      let t := { t with begun := true, rkind := k, wait := eps, lostOwner := t.lostOwner || (unread && deadOwner s line) }
      let s : State := { s with home := s.home.map fun u => if u.id == t.id then t else u }
      if eps.isEmpty then homeFinish s t
      else eps.foldl (fun s e => s.say (.recall e k ⟨s.self, t.id, line⟩)) s

/-- The request of a line whose turn it is: the first; where that lets an earlier write of the home package go before it, what this
package itself asks for (05 R128, 16 R357). -/
def homeFirst (s : State) (line : Nat) : Option HomeTxn :=
  match s.home.find? fun t => t.req.line == line with
  | none => none
  | some t => if t.behindWrite s then s.home.find? fun u => u.req.line == line && u.req.ep == s.self else some t
/-- The first request of a line is begun, or finished once nothing is awaited (05 R128). -/
def homePump (s : State) (line : Nat) : State :=
  match homeFirst s line with
  | none => s
  | some t => if !t.begun then (if t.dropped then homeDropTxn s t.id line else homeBegin s t)
    else if t.wait.isEmpty then homeFinish s t else s

/-- The stack of a line (02 R61). -/
def stackOf (line : Nat) : Nat := lineOff line / 2 ^ 36

/-- The requests that take places in the queue of a line's base die (05 R128). DESIGN CHOICE: those of other endpoints that are not being
answered; the home package's own take none (log 94). -/
def homeQueue (s : State) (line : Nat) : List HomeTxn :=
  s.home.filter fun t => stackOf t.req.line == stackOf line && t.req.ep != s.self && !t.begun
/-- A request arrives at the base die (05 R123, R128, R138, R139). Its cell is checked against the class that the page has now
(05 R132, R133); a request that is to be refused counts no access, and neither does a non-tracking read (01 R31). -/
def homeArrive (s : State) (kind : HomeKind) (r : HomeReq) : State :=
  let c := cellOf s r.ep
  if shunned s r.ep || !isLocal s r.line then s
  else if 256 ≤ (homeQueue s r.line).length then s.say (.retry r.ep r.id)
  else
    let (id, s) := s.fresh
    let denied := r.ep != s.self && kind.owning && !admits s (pclass s r.line) c
    let counted := match kind with
      | .ntr => false
      | _ => !r.unt && !denied
    let s : State := { s with home := s.home ++ [⟨id, kind, r, [], false, 0, none, false, [], false, 0, none, denied, s.now, false⟩] }
    homePump (pageCount s r.line c (r.cen && counted)) r.line

/-- WBK is accepted at once, even for a busy line (05 R128, R129); on a line that waits for an ECC retry it is performed after the
verdict (16 R357). DEDUCED: one that arrives while the line's directory entry is
unreadable is judged by the metadata word that is stored (05 R141 does not say; log 82). -/
def homeWbk (s : State) (r : HomeReq) : State :=
  let c := cellOf s r.ep
  if shunned s r.ep || !isLocal s r.line then s
  else if s.eccBusy.contains r.line then
    s.post (((s.agenda.find? fun e => e.2 == .eccRetry r.line).map Prod.fst).getD (s.now + 1)) (.wbk r)
  else
    let m := metaOf s r.line
    let s :=
      if 2 ≤ dState m && dOwner m == c then
        let s := homeStore s r.line r.data r.psn
        dirSet s r.line (if dState m == OWN then SHR else UNC) 0 (if dState m == OWN then dCells m else [])
      else s
    s.say (.homeAns r.ep ⟨r.id, .ack, 0, false, false, 0⟩)

/-- CANCEL (05 R135): a queued request is removed; one whose recalls are outstanding is dropped when they are answered. -/
def homeCancel (s : State) (ep id : Nat) : State :=
  { s with home := (s.home.filter fun t => !(t.req.ep == ep && t.req.id == id && !t.begun)).map fun t =>
    if t.req.ep == ep && t.req.id == id then { t with dropped := true } else t }

/-- The answer to a recall (05 R130); one from a DEAD cell is discarded (05 R139). -/
def homeRecallAnswer (s : State) (a : RecallAns) : State :=
  if deadCell s (cellOf s a.ep) then s
  else match s.home.find? fun t => t.id == a.id && t.wait.contains a.ep with
    | none => s
    | some t =>
      let t := { t with
        wait := t.wait.filter fun e => e != a.ep
        dirty := if a.dirty.isSome then a.dirty else t.dirty
        dirtyPsn := if a.dirty.isSome then a.psn else t.dirtyPsn
        kept := if a.kept then cellOf s a.ep :: t.kept else t.kept }
      let s : State := { s with home := s.home.map fun u => if u.id == t.id then t else u }
      if t.wait.isEmpty then homeFinish s t else s

/-! ### Recalls that this package answers -/

/-- Answer a recall when the writes that were waiting are performed and the line's EXP has passed (05 R130); a home that is lost
meanwhile is answered no more (05 R138, R139). -/
def recallTry (s : State) (p : PendRecall) : State :=
  let line := p.r.line
  let reply (s : State) (d : Option LineData) (psn kept : Bool) : State :=
    State.say { s with recalls := s.recalls.filter fun q => !(q.r == p.r) } (.recallAns p.r.home ⟨p.r.id, s.self, d, psn, kept⟩)
  if shunned s p.r.home then { s with recalls := s.recalls.filter fun q => !(q.r == p.r) }
  else match s.l2get line none with
  | none => afterPoke (reply s none false false)
  | some L =>
    if (L.st == .m || L.st == .e) && s.l2w.any (fun w => w.line == line && !w.nc && w.arrived ≤ p.at_ && !w.asked) then s
    -- what the copy was asked for reads it first (log 2)
    else if s.now < max L.exp (L.gained + 2) then s.post (max L.exp (L.gained + 2)) (.leaseExpiry line)
    else
      let dirty := L.st == .m || L.st == .o
      let d := if dirty then some L.data else none
      -- a recall by a home of the own cell teaches nothing but a long stay (03 R83)
      let train := predictTrain s L (cellOf s p.r.home != cellOf s s.self)
      let become (st : L2St) : State := train.l2mod line none fun L => { L with st := st }
      match p.kind with
      | 0 => afterPoke (reply (train.l2drop line none) d L.psn false)
      | 1 => reply (become (if dirty then .o else .s)) d L.psn true
      | 2 => reply s d L.psn (L.st == .o || L.st == .s)
      | _ => reply (become .s) d L.psn true

/-- A recall arrives (05 R130); an isolated package answers no other cell (05 R138). A recall of a line is also a change
that a WAIT looks at (09 R234). -/
def recallArrive (s : State) (kind : Nat) (r : Recall) : State :=
  if shunned s r.home then s
  else
    let p : PendRecall := ⟨r, kind, s.now⟩
    recallTry { s with recalls := s.recalls ++ [p] } p

/-- LEASE EXPIRY: writes, recalls and the home's requests that wait on a line are looked at again (02 R59, R60). -/
def leaseExpiry (s : State) (line : Nat) : State :=
  let s := (s.recalls.filter fun p => p.r.line == line).foldl recallTry s
  let s := homePump s line
  match s.l2w.find? fun w => w.line == line with
  | some w => s.post s.now (.l2WritePerform w.id)
  | none => s

/-! ### Answers to this package's requests -/

/-- Loads that wait on a copy of a line fault (05 R135, R136, R132). -/
def loadsFault (s : State) (line : Nat) (unt : Option Nat) (code detail : Nat) : State :=
  (List.range s.cores.length).foldl (fun s c =>
    let mine (l : LoadReq) : Bool := l.line == line && (if l.nc && !isLocal s line then some l.slot else none) == unt
    let hit := (s.core c).loads.filter mine
    if hit.isEmpty then s
    else
      let s := s.modCore c fun k => { k with loads := k.loads.filter fun l => !mine l }
      hit.foldl (fun s l => s.modThread l.uid fun t => t.modEntry l.entry fun e =>
        e.fault (BitVec.ofNat 96 (2 ^ l.lane)) code detail) s) s

/-- The writes that wait for a copy of a line. -/
def lineWrites (s : State) (line : Nat) (unt : Option Nat) : List L2Write :=
  s.l2w.filter fun w => w.line == line && !w.asked && (if w.nc then some w.slot else none) == unt
/-- The request for a copy of a line ends with a fault: what waited on it faults; writes behind a read ask again, and loads
behind a refused request for ownership ask by RDS (05 R132). -/
def lineFault (s : State) (line : Nat) (unt : Option Nat) (owns : Bool) (code detail : Nat) : State :=
  let s := if code == PARAPET_DENIED then s else loadsFault s line unt code detail
  let s : State := { s with expired := (line, s.now, code) :: s.expired.filter fun e => s.now < e.2.1 + 64 }
  let s := if owns then (lineWrites s line unt).foldl (fun s w => l2Fault s w code detail) s else s
  pokeLine s line

/-- A copy of a line arrives: it enters the L2 (05 R127). False when no way is free. -/
def lineFill (s : State) (slot line : Nat) (nc : Bool) (kind : HomeKind) (a : HomeAns) : Option State :=
  let unt := if nc then some (slot, (0 : LineMask)) else none
  let own := match kind with
    | .rdx | .upg => true
    | _ => false
  match s.l2get line (if nc then some slot else none) with
  | some _ => some (s.l2mod line (if nc then some slot else none) fun L => { L with
      st := if own then .m else L.st, gained := if own then s.now else L.gained
      data := if own && a.has then a.data else L.data, psn := if own && a.has then a.psn else L.psn })
  | none =>
    if own && !a.has then some s
    else
      let last := ((lineWrites s line (unt.map Prod.fst)).head?.map L2Write.last).getD false
      l2Fill s slot ⟨line, if own then .m else .s, unt, 0, a.psn, a.data, s.now, 0⟩ ((own || nc) && last)

/-- HOME ANSWER (05 R127, R132, R135, R136). -/
def homeAnswer (s : State) (a : HomeAns) : State :=
  match s.reqs.find? fun r => r.id == a.id with
  | none => s
  | some r =>
    let gone : State := { s with reqs := s.reqs.filter fun q => q.id != a.id }
    let owns := match r.kind with
      | .rdx | .upg => true
      | _ => false
    if r.ended then
      -- a late grant is given back at once, with the data of the copy held here where that is newer or the grant brings none
      -- (05 R135); what was asked for anew meanwhile is cancelled, and asked for again after it
      if owns && (a.kind == .data || a.kind == .grant) then
        let again (q : OutReq) : Bool := !q.ended && q.line == r.line && q.copyOf == some none
        let gone := (gone.reqs.filter again).foldl (fun (s : State) q => s.sayTo (spanId s) q.ep (.cancel (spanId s) q.ep q.id))
          { gone with reqs := gone.reqs.map fun q => if again q then { q with ended := true } else q }
        let own := (s.l2get r.line none).filter fun L => !a.has || L.st == .m || L.st == .e
        let d := match own with
          | some L => some (L.data, L.psn)
          | none => if a.has then some (a.data, a.psn) else none
        match d, r.for_ with
        | some (d, psn), .line slot _ =>
          pokeLine (sendReq (dropTracked gone r.line) slot .wbk r.line false d fullMask psn none false .writeback) r.line
        | _, _ => gone
      else gone
    else
      let bad (code : Nat) : State := match r.for_ with
        | .line slot nc => if r.kind == .prf then gone
          else lineFault gone r.line (if nc then some slot else none) (owns || r.kind == .ntr) code 0
        | .write id => match gone.l2w.find? fun w => w.id == id with
          | some w => lineOver (l2Fault gone w code 0) r.line
          | none => lineOver gone r.line
        | .untracked slot =>
          lineOver (if code == PARAPET_DENIED then gone.modCtx slot fun c => { c with pdeny := c.pdeny.or (some r.line) } else gone) r.line
        | .held ws => ws.foldl (fun s w => l2Fault s w code 0) gone
        | _ => lineOver gone r.line
      match a.kind with
      | .denied => bad PARAPET_DENIED
      | .lost => bad HOME_LOST
      | .skip => pokeLine gone r.line
      | .data | .grant | .ack | .result =>
        match r.for_ with
        | .line slot nc => match lineFill gone slot r.line nc r.kind a with
          | some s => lineOver s r.line
          | none => s.post (s.now + 1) (.homeAnswer a)
        | .write id => match gone.l2w.find? fun w => w.id == id with
          | some w => lineOver (l2Done gone w s.now ⟨a.res, a.psn⟩) r.line
          | none => lineOver gone r.line
        | _ => lineOver gone r.line

/-! ### Reads at a slice -/

/-- Writes of a line that arrived no later than a load and may be performed now go first (02 R59): at the home, then at the
slice. -/
def writeFirst (s : State) (line arrived : Nat) : State :=
  let exp := ((s.l2get line none).map L2Line.exp).getD 0
  let due (t : HomeTxn) : Bool :=
    t.begun && t.wait.isEmpty && (t.kind == HomeKind.wrf || t.kind == HomeKind.atf) && decide (max exp (nextWrite s line) ≤ s.now)
  let s : State := if (s.home.find? fun t => t.req.line == line).any due then homePump s line else s
  match s.l2w.find? fun w => w.line == line with
  | some w => if w.arrived ≤ arrived && w.arrived ≤ s.now && !w.asked then l2WritePerform s w.id else s
  | none => s
/-- Read a line at its slice as a context entry does, in a non-coherent window or not; the load arrived at a tick. No write of the
line is performed any more in a tick in which it was read (02 R59). -/
def l2ReadAt (s : State) (slot line : Nat) (nc cen : Bool) (arrived : Nat) : L2Ans × State :=
  let s := writeFirst s line arrived
  if isLocal s line then
    if unreadable s line then (.pending, s)
    else if 2 ≤ bits (metaOf s line) 62 2 then (.pending, homeLocal s .localLoad line)
    else match localLine s slot line cen false with
      | (some L, s) => (.data L.data (homePsn s line), markUse s line)
      | (none, s) => (.pending, s)
  else
    let unt := if nc then some slot else none
    match s.l2get line unt with
    | some L => (.data L.data L.psn, (s.l2mod line unt fun L => { L with wrote := s.now + 1 }).l2touch line unt)
    | none =>
      if homeLost s line then (.lost, s)
      else (.pending, askLine s slot line nc cen (if nc then .ntr else .rds))
def l2Read (s : State) (slot line : Nat) (nc cen : Bool) : L2Ans × State := l2ReadAt s slot line nc cen s.now

end Sys2Proof.Machine
end

