-- ==== Sys2Proof/Machine/Xlat.lean ====
section
/-! DEFINITION. Translation: page tables, TLBs, walks, invalidation (01 R12, R22 to R41), non-coherent windows (01 R30),
and the device's own accesses, by physical and by virtual address (15 R407). -/
namespace Sys2Proof.Machine

/-- Why an address is translated. -/
inductive Acc where
  | read | write | fetch
deriving DecidableEq, Repr

/-- A finished walk. -/
inductive XAns where
  | ok (e : TlbEnt)
  | fault (code detail : Nat)
  /-- a line of the page table is on its way -/
  | pending (line : Nat)
deriving DecidableEq, Repr

/-! ### Reading by physical address -/

/-- The answer to a read of bytes of one line, or of a range. -/
inductive DAns where
  | ok (v : Nat) (psn : Bool)
  | fault (t : Trap)
  | pending
deriving DecidableEq, Repr

/-- Read n bytes of one line by physical address, span-coherent (01 R26). -/
def physRead (s : State) (slot pa n : Nat) (nc cen : Bool) : L2Ans × State :=
  let reg := isRegLine s (pa / 128)
  if reg && !(n == 8 && pa % 8 == 0) then (.data 0 false, s)
  else if ownReg s (pa / 128) then
    match regRead s (pa % 2 ^ 42 - 2 ^ 39) with
    | some v => (.data (BitVec.ofNat 1024 v) false, s)
    | none => (.pending, s)
  else if reg then
    -- another package's register is read without keeping the line
    match regAsk s slot (pa / 128) (pa % 128) n with
    | (.data d psn, s) => (.data (BitVec.ofNat 1024 (lineGet d (pa % 128) n)) psn, s.l2drop (pa / 128) (some slot))
    | r => r
  else bytes (l2Read s slot (pa / 128) nc cen)
where
  bytes : L2Ans × State → L2Ans × State
    | (.data d psn, s) => (.data (BitVec.ofNat 1024 (lineGet d (pa % 128) n)) psn, s)
    | r => r

/-- The code with which the request for a line failed that a reader or a writer of the device waits on (05 R135, R136, log
9); a refusal of ownership is a writer's only (05 R132). -/
def takeExpired (s : State) (line : Nat) (write : Bool) : Option Nat × State :=
  match s.expired.find? fun e => e.1 == line && s.now < e.2.1 + 64 && (write || e.2.2 != PARAPET_DENIED) with
  | some e => (some e.2.2, { s with expired := s.expired.filter fun e => e.1 != line })
  | none => (none, s)

/-! ### Page table entries (01 R23, R24, R28) -/

/-- A package member of the span whose Spaind memory holds a physical address. -/
def inSpaind (s : State) (pa : Nat) : Bool :=
  present s (pa / 2 ^ 42) && !isHost s (pa / 2 ^ 42) && decide (pa % 2 ^ 42 < 2 ^ 39)
/-- A leaf that 01 R28 refuses. -/
def leafRefused (s : State) (pte : Dword) : Bool :=
  let pa := bits pte 16 36 * 65536
  let ep := pa / 2 ^ 42
  !present s ep || (if isHost s ep then bits pte 6 2 == 0 else decide (0xC000000000 ≤ pa % 2 ^ 42) || bits pte 6 2 == 1)
/-- A valid entry that is malformed at a level. -/
def malformed (level : Nat) (pte : Dword) : Bool :=
  if bit pte 1 then
    2 ≤ level || bits pte 10 6 != 0 || (bit pte 5 && level == 1) || 2 ≤ bits pte 6 2 || (level == 1 && bits pte 16 13 != 0)
  else level == 0 || bits pte 2 14 != 0
/-- The translation of a leaf: 64 KiB, a 2 MiB run, or 512 MiB (01 R22, R25). -/
def leafEnt (s : State) (slot va level : Nat) (pte : Dword) : TlbEnt :=
  let size := if level == 1 then 2 ^ 29 else if bit pte 5 then 2 ^ 21 else 2 ^ 16
  let pa := bits pte 16 36 * 65536
  ⟨va / size * size, size, slot, pa / size * size, bit pte 2, bit pte 3, bit pte 4, bit pte 9, isHost s (pa / 2 ^ 42)⟩

/-- The index of a virtual address at a level, and its bits above that level's entry (01 R22). -/
def vaIndex (va level : Nat) : Nat :=
  match level with
  | 3 => va / 2 ^ 55 % 4
  | 2 => va / 2 ^ 42 % 8192
  | 1 => va / 2 ^ 29 % 8192
  | _ => va / 2 ^ 16 % 8192
def vaPrefix (va level : Nat) : Nat :=
  match level with
  | 3 => va / 2 ^ 55
  | 2 => va / 2 ^ 42
  | 1 => va / 2 ^ 29
  | _ => va / 2 ^ 16

/-- Keep a pointer entry in a die's walk cache of 512 entries, 16 to a set; the oldest of a full set leaves (01 R34, log 7). -/
def walkKeep (s : State) (w : WalkEnt) : State :=
  let inSet (x : WalkEnt) : Bool := x.die == w.die && x.va % 32 == w.va % 32
  let old := s.wcache.filter inSet
  match (if old.length < 16 then none else old.getLast?) with
  | some o => { s with wcache := w :: s.wcache.filter fun x => x != o }
  | none => { s with wcache := w :: s.wcache }

/-- One level of a walk: the entry read, then the next node (01 R24, R26, R28). -/
def walkFrom (die slot va : Nat) : Nat → Dword → State → XAns × State
  | level, pte, s =>
    if !bit pte 0 then (.fault PAGE_FAULT level, s)
    else if malformed level pte then (.fault ACCESS_VIOLATION (0x10 + level), s)
    else if bit pte 1 then
      if leafRefused s pte then (.fault ACCESS_VIOLATION 4, s) else (.ok (leafEnt s slot va level pte), s)
    else
      let node := bits pte 16 36 * 65536
      if !inSpaind s node then (.fault ACCESS_VIOLATION (0x10 + level), s)
      else match level with
        | 0 => (.fault ACCESS_VIOLATION 0x10, s)
        | l + 1 =>
          let at_ := node + 8 * vaIndex va l
          match s.wcache.find? fun w => w.die == die && w.slot == slot && w.level == l && w.va == vaPrefix va l with
          | some w => walkFrom die slot va l w.pte s
          | none =>
            match takeExpired s (at_ / 128) false with
            | (some code, s) => (.fault code 0, s)
            | (none, s) => match physRead s slot at_ 8 false false with
              | (.lost, s) => (.fault HOME_LOST 0, s)
              | (.pending, s) => (.pending (at_ / 128), s)
              | (.data d psn, s) =>
                -- DEDUCED: a poisoned line reads as zero (log 8)
                let pte : Dword := if psn then 0 else d.truncate 64
                -- nor is a pointer kept that 01 R28 refuses
                let keep := bit pte 0 && !bit pte 1 && !malformed l pte && 0 < l && inSpaind s (bits pte 16 36 * 65536)
                walkFrom die slot va l pte (if keep then walkKeep s ⟨die, slot, l, vaPrefix va l, pte⟩ else s)

/-- The compute die of a core (14 R323). -/
def dieOf (core : Nat) : Nat := core / 80
/-- A walk from the L3 entries of the context block. -/
def walkNow (s : State) (die slot va : Nat) : XAns × State :=
  walkFrom die slot va 3 ((s.ctx slot).l3.getD (vaIndex va 3) 0) s

/-- Steps 5 to 7 of 01 R29 on a translation. -/
def entCheck (e : TlbEnt) (acc : Acc) (sup : Bool) : Option (Nat × Nat) :=
  if !sup && !e.u then some (ACCESS_VIOLATION, 2)
  else if acc == .write && !e.w then some (PAGE_FAULT, 4)
  else if acc == .fetch && !e.x then some (FETCH_FAULT, 5)
  else none
/-- Instruction fetch raises FETCH_FAULT in place of PAGE_FAULT and ACCESS_VIOLATION (01 R29). -/
def accTrap (acc : Acc) (va : Dword) (code detail : Nat) : Trap :=
  ⟨if acc == .fetch && (code == PAGE_FAULT || code == ACCESS_VIOLATION) then FETCH_FAULT else code, detail, va⟩
def TlbEnt.phys (e : TlbEnt) (va : Nat) : Nat := e.pa + va % e.size
def TlbEnt.covers (e : TlbEnt) (slot va : Nat) : Bool := e.slot == slot && e.va == va / e.size * e.size

/-- The answer of a translation. -/
inductive TAns where
  | ok (pa : Nat) (cen : Bool)
  | fault (t : Trap)
  | pending
deriving DecidableEq, Repr

/-- A line is on its way to this package, or busy at its home here. -/
def lineComing (s : State) (slot line : Nat) : Bool :=
  asked s line none || asked s line (some slot)
    || isLocal s line && (s.eccBusy.contains line || s.home.any fun t => t.req.line == line)
/-- A walk waits for a line of the page table that is on its way (01 R38). -/
def Walk.reads (w : Walk) (s : State) : Bool := w.line.any (lineComing s w.slot)
/-- Whether a walk of a core for a page is in progress, for its TLBs or for another reader. -/
def walking (s : State) (core slot va : Nat) (dev : Bool) : Bool :=
  s.walks.any fun w => w.core == core && w.slot == slot && w.va == va / 65536 && w.dev == dev
/-- Begin a walk for a page, when one of the die's 8 walkers is free (01 R34); `line` is what it waits for already. -/
def beginWalk (s : State) (core slot va : Nat) (dev : Bool) (line : Option Nat) : State :=
  if walking s core slot va dev || 8 ≤ (s.walks.filter fun w => dieOf w.core == dieOf core).length then s
  else
    let (id, s) := s.fresh
    State.post { s with walks := s.walks ++ [⟨id, core, slot, va / 65536, s.now, false, dev, line⟩] } (s.now + Config.walkTicks)
      (.pageWalkComplete id)
/-- A walk for a reader that comes back for it. -/
def Walk.devOf (w : Walk) (core slot va : Nat) : Bool := w.core == core && w.slot == slot && w.va == va / 65536 && w.dev
/-- A walk for a reader that comes back for it, by one of the die's 8 walkers, which keeps it while a line of the page table is on
its way (01 R34, R38). One that an invalidation has met ends when its read does, and another begins then (01 R37). -/
def walkFor (s : State) (core slot va : Nat) : XAns × State :=
  let mine (w : Walk) : Bool := w.devOf core slot va
  if s.walks.any fun w => mine w && w.restart && w.reads s then (.pending 0, s)
  else
    let s : State := { s with walks := s.walks.filter fun w => !(mine w && w.restart) }
    if !walking s core slot va true && 8 ≤ (s.walks.filter fun w => dieOf w.core == dieOf core).length then (.pending 0, s)
    else match walkNow s (dieOf core) slot va with
      | (.pending l, s) =>
        (.pending l, beginWalk { s with walks := s.walks.map fun w => if mine w then { w with line := some l } else w } core slot va true
          (some l))
      | (r, s) => (r, { s with walks := s.walks.filter fun w => !mine w })

/-- Translate at once, by a walk: the device's own accesses, and records read at issue. -/
def xlatNow (s : State) (die slot : Nat) (va : Dword) (acc : Acc) (sup : Bool) : TAns × State :=
  if bits va 57 7 != 0 then (.fault (accTrap acc va ACCESS_VIOLATION 1), s)
  else match walkFor s (80 * die) slot va.toNat with
    | (.pending _, s) => (.pending, s)
    | (.fault c d, s) => (.fault (accTrap acc va c d), s)
    | (.ok e, s) => match entCheck e acc sup with
      | some (c, d) => (.fault (accTrap acc va c d), s)
      | none => (.ok (e.phys va.toNat) e.cen, s)

/-- What a walk that has just ended found for a page: its fault, if it met one. -/
structure Walked where
  core : Nat
  slot : Nat
  page : Nat
  code : Nat
  detail : Nat
deriving DecidableEq, Repr

/-- The three first-level TLBs of a core (01 R34). -/
inductive Tlb where
  | pipe | insn | copy
deriving DecidableEq, Repr
def Tlb.size : Tlb → Nat
  | .pipe => 64
  | .insn => 16
  | .copy => 32
def Core.tlbOf (k : Core) : Tlb → List TlbEnt
  | .pipe => k.tlb
  | .insn => k.itlb
  | .copy => k.ctlb
def Core.setTlb (k : Core) (l : List TlbEnt) : Tlb → Core
  | .pipe => { k with tlb := l }
  | .insn => { k with itlb := l }
  | .copy => { k with ctlb := l }
/-- The translation of the same page. -/
def TlbEnt.page (e x : TlbEnt) : Bool := e.slot == x.slot && e.va == x.va && e.size == x.size
/-- Install in a first-level TLB; the oldest entry of a full one leaves (log 7). -/
def Core.install (k : Core) (t : Tlb) (e : TlbEnt) : Core :=
  k.setTlb (e :: ((k.tlbOf t).filter fun x => !e.page x).take (t.size - 1)) t
/-- The set of a translation in the second level (log 7). -/
def TlbEnt.set (e : TlbEnt) : Nat := e.va / e.size % 256
/-- Install in the second level of 2,048 entries, 8 to a set (01 R34). -/
def Core.install2 (k : Core) (e : TlbEnt) : Core :=
  let rest := k.tlb2.filter fun x => !e.page x
  let old := rest.filter fun x => x.set == e.set
  { k with tlb2 := e :: match (if old.length < 8 then none else old.getLast?) with
    | some o => rest.filter fun x => x != o
    | none => rest }
/-- Look a page up in a first-level TLB, then in the second level, which refills the first (01 R34). -/
def tlbFind (s : State) (core slot : Nat) (t : Tlb) (va : Nat) : Option TlbEnt × State :=
  match ((s.core core).tlbOf t).find? fun e => e.covers slot va with
  | some e => (some e, s)
  | none => match (s.core core).tlb2.find? fun e => e.covers slot va with
    | some e => (some e, s.modCore core fun k => k.install t e)
    | none => (none, s)
/-- Every translation of a page that a core holds is dropped. -/
def Core.dropPage (k : Core) (slot va : Nat) : Core :=
  let rest (l : List TlbEnt) : List TlbEnt := l.filter fun e => !e.covers slot va
  { k with tlb := rest k.tlb, itlb := rest k.itlb, ctlb := rest k.ctlb, tlb2 := rest k.tlb2 }
def Acc.tlb : Acc → Tlb
  | .fetch => .insn
  | _ => .pipe
/-- A translation that a TLB gave is checked; an entry that fails is dropped (01 R26, R29). -/
def entUse (s : State) (core slot : Nat) (va : Dword) (acc : Acc) (sup : Bool) (e : TlbEnt) : TAns × State :=
  match entCheck e acc sup with
  | some (c, d) => (.fault (accTrap acc va c d), s.modCore core fun k => k.dropPage slot va.toNat)
  | none => (.ok (e.phys va.toNat) e.cen, s)
/-- The copy engine's translation, through its own TLB and the second level, else by a walk (01 R34, R40). -/
def xlatCopy (s : State) (core slot : Nat) (va : Dword) (acc : Acc) : TAns × State :=
  if bits va 57 7 != 0 then (.fault (accTrap acc va ACCESS_VIOLATION 1), s)
  else match tlbFind s core slot .copy va.toNat with
    | (some e, s) => entUse s core slot va acc false e
    | (none, s) => match walkFor s core slot va.toNat with
      | (.pending _, s) => (.pending, s)
      | (.fault c d, s) => (.fault (accTrap acc va c d), s)
      | (.ok e, s) => entUse (s.modCore core fun k => (k.install2 e).install .copy e) core slot va acc false e

/-- Translate through the core's TLBs (01 R26, R34): a miss begins a walk, whose fault is raised when it ends. -/
def xlat (s : State) (core slot : Nat) (va : Dword) (acc : Acc) (sup : Bool) (walked : Option Walked) : TAns × State :=
  if bits va 57 7 != 0 then (.fault (accTrap acc va ACCESS_VIOLATION 1), s)
  else match tlbFind s core slot acc.tlb va.toNat with
    | (some e, s) => entUse s core slot va acc sup e
    | (none, s) => match walked with
      | some w =>
        if w.core == core && w.slot == slot && w.page == va.toNat / 65536 then (.fault (accTrap acc va w.code w.detail), s)
        else (.pending, beginWalk s core slot va.toNat false none)
      | none => (.pending, beginWalk s core slot va.toNat false none)

/-- The virtual address lies in an enabled non-coherent window of a context (01 R30). -/
def inWindow (c : Ctx) (va : Nat) : Bool :=
  c.ncw.any fun w =>
    let sz := bits w 2 6
    bit w 0 && 16 ≤ sz && sz ≤ 56 && (bits w 16 41 * 65536) / 2 ^ sz == va / 2 ^ sz

/-! ### The device's accesses by virtual address -/

/-- A read of a record, a window or a table waits for a line (01 R38). -/
def noteDevRead (s : State) (slot va line : Nat) : State :=
  if s.devReads.contains (slot, va, line) then s else { s with devReads := (slot, va, line) :: s.devReads }
/-- Reads whose line has come, or was refused, wait no longer. -/
def pruneDevReads (s : State) : State :=
  if s.devReads.isEmpty then s else { s with devReads := s.devReads.filter fun r => lineComing s r.1 r.2.2 }

/-- Read n bytes, line by line; `coh`: span-coherently, whatever the windows say. `fuel` bounds the number of lines. -/
def devReadFrom (coh : Bool) (die slot : Nat) (sup : Bool) : Nat → Nat → Nat → State → DAns × State
  | 0, _, _, s => (.ok 0 false, s)
  | fuel + 1, va, n, s =>
    if n == 0 then (.ok 0 false, s)
    else
      let k := min n (128 - va % 128)
      match xlatNow s die slot (BitVec.ofNat 64 va) .read sup with
      | (.pending, s) => (.pending, s)
      | (.fault t, s) => (.fault t, s)
      | (.ok pa cen, s) =>
        match takeExpired s (pa / 128) false with
        | (some code, s) => (.fault ⟨code, 0, BitVec.ofNat 64 va⟩, s)
        | (none, s) => match physRead s slot pa k (!coh && inWindow (s.ctx slot) va) cen with
          | (.lost, s) => (.fault ⟨HOME_LOST, 0, BitVec.ofNat 64 va⟩, s)
          | (.pending, s) => (.pending, noteDevRead s slot va (pa / 128))
          | (.data d psn, s) => match devReadFrom coh die slot sup fuel (va + k) (n - k) s with
            | (.ok v p, s) => (.ok (d.toNat + v * 256 ^ k) (psn || p), s)
            | r => r
/-- Read n bytes of a context's memory as the device (15 R407), or as a group at issue. -/
def devRead (s : State) (die slot : Nat) (sup : Bool) (va : Dword) (n : Nat) : DAns × State :=
  devReadFrom false die slot sup (n / 128 + 2) va.toNat n s

/-- A write of the device to bytes of one line, by the virtual address that was translated, or 0. -/
def deviceWrite (slot va pa n v : Nat) (nc cen : Bool) (atom : Option AtomReq) : L2Write :=
  ⟨0, pa / 128, slot, nc, cen, lineAt (pa % 128) n v, maskAt (pa % 128) n, false, atom, 0, .device 0, va, false, false, false⟩
/-- Such a write performed now, or not at all. -/
def physTry (s : State) (slot pa n v : Nat) (nc cen : Bool) (atom : Option AtomReq) : WAns × State :=
  let w := deviceWrite slot 0 pa n v nc cen atom
  if s.l2w.any fun x => x.line == w.line then (.pending, s)
  else match l2TryWrite s w with
    | (.wait t, s) => (.pending, s.post (max t (s.now + 1)) (.leaseExpiry w.line))
    | (.done r, s) => (.done r, afterPoke s)
    | r => r
/-- A write of the device that cannot be performed now waits at its slice, in the order of arrival (02 R59). -/
def deviceQueue (s : State) (w : L2Write) (tick : Nat) : State :=
  let (id, s) := s.fresh
  State.post { s with l2w := s.l2w ++ [{ w with id := id, arrived := s.now }] } tick (.l2WritePerform id)
/-- What became of a write that the device has made before: it waits, or its result, which its writer takes once. -/
def deviceFind (s : State) (w : L2Write) : Option (WAns × State) :=
  let held (r : OutReq) : Bool := !r.ended && match r.for_ with
    | .held ws => ws.any fun x => x.asDevice == w.asDevice
    | _ => false
  match s.devDone.find? fun d => d.1 == w.asDevice with
  | some d => some (.done d.2.1, { s with devDone := s.devDone.filter fun e => e.1 != w.asDevice })
  | none => if (s.l2w.any fun x => x.asDevice == w.asDevice) || s.reqs.any held then some (.pending, s) else none
/-- A write of the device: performed now, or as soon as its slice allows; what writes comes back, and finds it waiting or
performed. -/
def deviceStore (s : State) (w : L2Write) : WAns × State :=
  match deviceFind s w with
  | some r => r
  | none =>
    if (s.l2w.any fun x => x.line == w.line) || (isRegLine s w.line && !ownReg s w.line) then
      (.pending, deviceQueue s w (s.now + 1))
    else match l2TryWrite s w with
      | (.wait t, s) => (.pending, deviceQueue s w (max t (s.now + 1)))
      | (.done r, s) => (.done r, afterPoke s)
      | (.pending, s) => (.pending, deviceQueue s w (s.now + 1))
      | r => r
/-- A write of the device by a physical address. -/
def physWrite (s : State) (slot pa n v : Nat) (nc cen : Bool) (atom : Option AtomReq) : WAns × State :=
  deviceStore s (deviceWrite slot 0 pa n v nc cen atom)
/-- A write of the device that waits is withdrawn. -/
def deviceDrop (s : State) (w : L2Write) : State :=
  { s with l2w := s.l2w.filter fun x => x.asDevice != w.asDevice, devDone := s.devDone.filter fun d => d.1 != w.asDevice }

/-- What became of a device write by virtual address. -/
inductive DWAns where
  | ok (r : SVal) | fault (t : Trap) | pending
deriving DecidableEq, Repr

/-- Write n bytes of one line, or perform an atomic there, as the device or as a group of the context; `coh`: span-coherently,
whatever the windows say. A write that waits holds its translation (01 R38). -/
def devWriteTo (coh : Bool) (s : State) (die slot : Nat) (sup : Bool) (va : Dword) (n v : Nat) (atom : Option AtomReq) : DWAns × State :=
  match (if va == 0 then none else deviceFind s (deviceWrite slot va.toNat va.toNat n v false false atom)) with
  | some (.done r, s) => (.ok r, s)
  | some (_, s) => (.pending, s)
  | none => match xlatNow s die slot va .write sup with
    | (.pending, s) => (.pending, s)
    | (.fault t, s) => (.fault t, s)
    | (.ok pa cen, s) =>
      match takeExpired s (pa / 128) true with
      | (some code, s) => (.fault ⟨code, if code == REMOTE_TIMEOUT then 1 else 0, va⟩, s)
      | (none, s) =>
        match deviceStore s (deviceWrite slot va.toNat pa n v (!coh && inWindow (s.ctx slot) va.toNat) cen atom) with
        | (.done r, s) => (.ok r, s)
        | (.lost, s) => (.fault ⟨HOME_LOST, 0, va⟩, s)
        | (_, s) => (.pending, s)
def devWrite (s : State) (die slot : Nat) (sup : Bool) (va : Dword) (n v : Nat) (atom : Option AtomReq) : DWAns × State :=
  devWriteTo false s die slot sup va n v atom

/-! ### Invalidation (01 R36 to R38) -/

def invHitsSlot (m : InvMsg) (s : State) (slot : Nat) : Bool :=
  match m.kind with
  | .all => true
  | _ => (s.ctx slot).num == m.ctx && (s.ctx slot).status != .unknown
def invHitsTlb (m : InvMsg) (s : State) (e : TlbEnt) : Bool :=
  invHitsSlot m s e.slot && (match m.kind with
    | .page va => e.va == va / e.size * e.size
    | _ => true)
def invHitsWalk (m : InvMsg) (s : State) (w : WalkEnt) : Bool :=
  invHitsSlot m s w.slot && (match m.kind with
    | .page va => w.va == vaPrefix va w.level
    | _ => true)
/-- Drop what an invalidation names, the toll cache among it (13 R312), and have the walks of its context begin again. -/
def invalidate (s : State) (m : InvMsg) : State :=
  let rest (l : List TlbEnt) : List TlbEnt := l.filter fun e => !invHitsTlb m s e
  let cores := s.cores.map fun k => { k with
    tlb := rest k.tlb
    itlb := rest k.itlb
    ctlb := rest k.ctlb
    tlb2 := rest k.tlb2
    rwc := match m.kind with
      | .page _ => k.rwc
      | _ => k.rwc.filter fun r => !invHitsSlot m s r.1 }
  let ctxs := mapFrom (fun i (c : Ctx) => match m.kind with
    | .page _ => c
    | _ => if invHitsSlot m s i then { c with toll := [] } else c) 0 s.ctxs
  { s with
    cores := cores
    ctxs := ctxs
    wcache := s.wcache.filter fun w => !invHitsWalk m s w
    walks := s.walks.map fun w => if invHitsSlot m s w.slot then { w with restart := true } else w }

end Sys2Proof.Machine
end

