-- ==== Sys2Proof/Machine/Log.lean ====
section
/-! DEFINITION. The operand log (11 R265 to R268): what becomes of each lane of a load, a store or an atomic: watermarks
(04 R105), translation, the store buffer (02 R55 to R57), leases (02 R53), scratchpads (01 R13 to R15, 02 R50). -/
namespace Sys2Proof.Machine

/-! ### Watermarks -/

/-- Whether bytes are held, and how (04 R105). -/
inductive Held where
  | free | wait | aborted (at_ : Nat)
deriving DecidableEq, Repr

/-- The lowest byte of [a, a + n) that a watermark holds; under a block format a scale slot of a tile buffer counts as the
first code byte of its block (04 R102, R105). -/
def Watermark.holds (w : Watermark) (space tb a n : Nat) : Option Nat :=
  let at_ (a n : Nat) : Option Nat :=
    let lo := max a (max w.lo w.mark)
    if w.state != 0 && w.space.toNat == space && (space != 2 || w.tb.toNat == tb) && lo < min (a + n) w.hi then some lo
    else none
  if space == 2 && w.codes != 0 && 0x4000 ≤ a then
    -- a slot beyond the blocks of its row belongs to none (04 R92, R102)
    (List.range n).findSome? fun i =>
      let o := a + i - 0x4000
      if o % 16 * w.codes + w.codes ≤ 256 then at_ (o / 16 * 256 + o % 16 * w.codes) 1 else none
  else at_ a n
/-- Compare an access against the watermarks of a team: an aborted one faults, one that lands or is frozen makes it wait. -/
def heldBy (marks : List Watermark) (space tb a n : Nat) : Held :=
  let hit (aborted : Bool) : Option Nat :=
    (marks.filterMap fun w => if (w.state == 4) == aborted then w.holds space tb a n else none).foldl
      (fun m b => some (match m with | none => b | some c => min b c)) none
  match hit true with
  | some b => .aborted b
  | none => if (hit false).isSome then .wait else .free

def State.marksOf (s : State) (team : Nat) : List Watermark := ((s.team? team).map Team.marks).getD []

/-! ### Scratch addresses (01 R13, R14) -/

/-- The members of a team's cluster, and the team's own index. -/
def State.clusterOf (s : State) (team : Nat) : Option Cluster := (s.team? team).bind fun m => s.cluster? m.cluster
/-- Check a scratch address: detail of the failure, or the member's team and the offset. -/
def scratchAddr (s : State) (team : Nat) (a : Dword) (n : Nat) : Except Nat (Nat × Nat) :=
  match s.team? team with
  | none => .error 0x21
  | some m =>
    let members := ((s.cluster? m.cluster).map Cluster.members).getD []
    let k := bits a 19 5
    let off := bits a 0 19
    let scrb := ((s.grid? m.grid).map fun g => g.r.scrb).getD 0
    if bits a 24 40 != 0 then .error 0x22
    else if k != 31 && members.length ≤ k then .error 0x21
    else if scrb < off + n then .error 0x20
    else .ok (if k == 31 then team else (members.getD k (0, team)).2, off)

/-! ### Finishing a lane -/

def laneBit (L : Nat) : LaneMask := BitVec.ofNat 96 (2 ^ L)
def LogEntry.perform (e : LogEntry) (L : Nat) : LogEntry :=
  { e with performed := e.performed ||| laneBit L, flight := e.flight &&& ~~~laneBit L, moving := e.moving &&& ~~~laneBit L }
/-- Add the fault of one lane. -/
def LogEntry.laneFault (e : LogEntry) (L : Nat) (t : Trap) : LogEntry :=
  { e with flight := e.flight &&& ~~~laneBit L, faults := LogEntry.fault.insert (L, t) e.faults }

/-- Lanes of an entry that are neither performed, sent, faulted nor held for a retry. -/
def LogEntry.unsent (e : LogEntry) : LaneMask := e.unperformed &&& ~~~(e.flight ||| e.faulted ||| e.moving)

/-- Bytes per lane of an entry. -/
def memSize : MemOp → Nat
  | .load n _ | .store n _ | .atom _ n | .spLoad n | .spStore n => n
  | .spAtom _ | .rput | .rget => 4
  | .rputf | .ratom _ => 8
  | .cflush | .cinv | .icinv => 1

/-- Write one lane of an entry's destination: n bytes of a value, zero with P = 1 when it is poisoned and carries no poison
value (11 R269, R272, 09 R225). A poisoned value for the mask faults (06 R155). -/
def Thread.writeLane (t : Thread) (e : LogEntry) (L : Nat) (v : Nat) (p : Bool) : Thread :=
  match e.dst with
  | .none => t
  | .vec base n => (List.range n).foldl (fun t i => t.putLanes (base + i) (laneBit L) fun _ => ⟨BitVec.ofNat 32 (v / 2 ^ (32 * i)), p⟩) t
  | .scal r banked =>
    let x : SVal := ⟨BitVec.ofNat 64 v, p⟩
    if banked then { t with banked := setAt t.banked r.val x }
    else
      let t := { t with sregs := setAt t.sregs r.val x }
      if t.mode == .user && !t.stream && 29 ≤ r.val then t.setMask t.mask else t
/-- Perform a lane that brings a value. -/
def Thread.finish (t : Thread) (id L v : Nat) (p : Bool) : Thread :=
  match t.log.find? fun e => e.id == id with
  | none => t
  | some e =>
    let bad : Bool := match e.dst with
      | .scal r false => p && t.mode == .user && !t.stream && 29 ≤ r.val
      | _ => false
    if bad then t.modEntry id fun e => e.laneFault L poisonTrap
    else (t.writeLane e L v p).modEntry id fun e => e.perform L
/-- Perform a lane that brings none. -/
def Thread.finishStore (t : Thread) (id L : Nat) : Thread := t.modEntry id fun e => e.perform L

/-! ### The core store buffer -/

def SbEntry.is (e : SbEntry) (s : State) (line slot : Nat) (nc : Bool) : Bool :=
  e.line == line && (if nc && !isLocal s line then e.nc && e.slot == slot else !e.nc || isLocal s line)
/-- A contribution that an entry handed to the replay buffer stands for has still to be sent again (02 R56). -/
def Contrib.handed (c : Contrib) (s : State) : Bool :=
  match s.entryOf c with
  | some x => x.unperformed &&& ~~~x.flight &&& c.lanes != 0
  | none => (s.copies ++ s.saved.flatMap SavedCluster.copies).any fun k => k.id == c.uid && k.stage == .stamping && k.sent.isEmpty
      && k.aborting.isNone
/-- An entry's bytes are visible. -/
def SbEntry.seen (e : SbEntry) (s : State) : Bool := !e.handed || e.from_.any fun c => c.handed s
/-- The entries that hold a place of the buffer (02 R55, R56). -/
def Core.sbUsed (k : Core) : Nat := (k.sb.filter fun e => !e.handed).length
/-- A contribution enters the buffer: what was handed to the replay buffer for it goes, and what was handed for younger accesses of its
thread stays newer. -/
def sbReenter (s : State) (core : Nat) (c : Contrib) : State :=
  if !((s.core core).sb.any SbEntry.handed) then s
  else s.modCore core fun k =>
    let rest := k.sb.filter fun e => !(e.handed && e.from_ == [c])
    let newer (e : SbEntry) : Bool := e.handed && e.from_.any fun b => b.uid == c.uid && c.entry < b.entry
    { k with sb := (rest.filter fun e => !newer e) ++ rest.filter newer }
/-- The bytes that the buffer holds for a line, the newest entry's where several hold one, and whether a wanted byte comes
from an entry with its poison flag set (02 R57). -/
def sbBytes (s : State) (core line slot : Nat) (nc : Bool) (want : LineMask) : LineData × LineMask × Bool :=
  let r := (s.core core).sb.foldl (fun (acc : LineData × LineMask × LineMask) e =>
    if e.atom.isNone && e.is s line slot nc && e.seen s then
      (lineMerge acc.1 e.data e.mask, acc.2.1 ||| e.mask, acc.2.2 &&& ~~~e.mask ||| (if e.psn then e.mask else 0))
    else acc) (0, 0, 0)
  (r.1, r.2.1, r.2.2 &&& want != 0)

/-! ### The replay buffer (11 R268) -/

/-- A read of a core that awaits an answer from beyond the package. -/
def LoadReq.beyond (l : LoadReq) (s : State) : Bool :=
  if isLocal s l.line then 2 ≤ bits (metaOf s l.line) 62 2 || s.home.any fun t => t.req.line == l.line && t.begun && !t.wait.isEmpty
  else isRegLine s l.line && !ownReg s l.line || (!isRegLine s l.line && (s.l2get l.line (if l.nc then some l.slot else none)).isNone)
/-- A store or an atomic of a core that awaits an answer from beyond the package. -/
def SbEntry.beyond (e : SbEntry) (s : State) : Bool :=
  e.sent && (s.l2w.any fun w => w.id == e.id) && (if isLocal s e.line then
      bits (metaOf s e.line) 62 2 != 0 || s.home.any fun t => t.req.line == e.line && t.begun && !t.wait.isEmpty
    else !ownReg s e.line && match s.l2get e.line (if e.nc then some e.slot else none) with
      | some L => !(e.nc || L.st == .m || L.st == .e)
      | none => true)
/-- How many different copies of lines some reads ask for. -/
def copiesOf : List LoadReq → Nat
  | [] => 0
  | l :: r => (if r.any fun k => k.line == l.line && k.nc == l.nc && (k.slot == l.slot || !l.nc) then 0 else 1) + copiesOf r
/-- The requests of a core that its replay buffer holds. DESIGN CHOICE (log 63): one for each log entry with a faulted lane that
awaits service, or with lanes answered RETRY-MIGRATING; one for each copy of a line that its loads await from beyond the package,
for each store buffer entry, each remote request, each write-back of a CFLUSH or CINV and each PRF that does. A put, a flag or a send that is
posted holds none: its entry has been freed, and its acknowledgement is no answer to a request of the log. -/
def replayHeld (s : State) (core : Nat) : Nat :=
  let here := s.allThreads.filter fun t => t.core == core
  (here.foldl (fun n t => n + (t.log.filter fun e => !e.faults.isEmpty || e.moving != 0).length
      + (t.log.foldl (fun n e => n + (s.reqs.filter fun r => !r.ended && e.wbs.contains r.id).length) 0)) 0)
    + copiesOf ((s.core core).loads.filter fun l => l.beyond s) + ((s.core core).sb.filter fun e => e.beyond s).length
    + (s.reqs.filter fun r => !r.ended && match r.for_ with
      | .lanes u _ _ => here.any fun t => t.uid == u
      | _ => (s.core core).prfs.contains r.id).length
/-- The replay buffer of 64 entries is full: the core sends no further memory request. -/
def replayFull (s : State) (core : Nat) : Bool := 64 ≤ replayHeld s core

/-! ### Sending the store buffer -/

/-- Send one entry to its slice. -/
def sbPut (s : State) (core : Nat) (e : SbEntry) : State :=
  let s := s.modCore core fun k => { k with sb := k.sb.map fun x => if x.id == e.id then { x with sent := true } else x }
  l2Arrive s ⟨e.id, e.line, e.slot, e.nc, e.cen, e.data, e.mask, e.psn, e.atom, s.now + 1, .sb core e.id, e.va, e.last, false, false⟩
/-- Send an entry to its slice, the unsent entries of its line that were opened before it first (02 R56). While the replay buffer
is full it is tried again a tick later (11 R268). -/
def sbSend (s : State) (core id : Nat) : State :=
  match (s.core core).sb.find? fun e => e.id == id with
  | none => s
  | some e =>
    if e.sent then s
    else ((((s.core core).sb.takeWhile fun x => x.id != id).filter fun x => x.line == e.line) ++ [e]).foldl (fun s x =>
      if x.sent then s
      else if replayFull s core then s.post (s.now + 1) (.storeBufferTimeout core id)
      else sbPut s core x) s
/-- Send every entry that a test picks, in the order in which they were opened. -/
def sbSendAll (s : State) (core : Nat) (f : SbEntry → Bool) : State :=
  ((s.core core).sb.filter f).foldl (fun s e => sbSend s core e.id) s

/-- A store enters the buffer: it coalesces with the unsent entry of its line, whichever group opened that, or takes a free
entry; with none free the oldest unsent is sent and it waits (02 R55, R56). An untracked copy of a line is another location
(03 R73). -/
def sbStore (s : State) (core slot line va : Nat) (nc cen : Bool) (data : LineData) (mask : LineMask) (psn last : Bool)
    (c : Contrib) : Option State × State :=
  -- register space is uncached: its stores stand alone (17 R365)
  match (s.core core).sb.find? fun e => !e.sent && e.atom.isNone && e.is s line slot nc && !isRegLine s line with
  | some e =>
    let e' : SbEntry := { e with
      data := lineMerge e.data data mask, mask := e.mask ||| mask, psn := e.psn || psn, last := e.last || last
      cen := e.cen || cen, from_ := e.from_ ++ [c]
      also := if e.slot == slot && e.va == va then e.also else (slot, va) :: e.also }
    let s := s.modCore core fun k => { k with sb := k.sb.map fun x => if x.id == e.id then e' else x }
    let s := sbReenter s core c
    (some (if e'.mask == fullMask then sbSend s core e.id else s), s)
  | none =>
    if 32 ≤ (s.core core).sbUsed then
      (none, match (s.core core).sb.find? fun e => !e.sent with
        | some e => sbSend s core e.id
        | none => s)
    else
      let (id, s) := s.fresh
      let e : SbEntry := ⟨id, line, slot, nc, cen, va, data, mask, psn, last, none, s.now, false, [c], none, false, false, []⟩
      let s := (sbReenter (s.modCore core fun k => { k with sb := k.sb ++ [e] }) core c).post (s.now + 32) (.storeBufferTimeout core id)
      (some (if mask == fullMask || isRegLine s line then sbSend s core id else s), s)

/-- An atomic takes an entry of its own, sent at once after the older entries of its line (11 R274). -/
def sbAtom (s : State) (core slot line va : Nat) (nc cen : Bool) (a : AtomReq) (c : Contrib) : Option State × State :=
  let s := sbSendAll s core fun e => e.line == line
  if 32 ≤ (s.core core).sbUsed then (none, sbSendAll s core fun e => !e.sent)
  else
    let (id, s) := s.fresh
    let e : SbEntry := ⟨id, line, slot, nc, cen, va, 0, 0, false, false, some a, s.now, false, [c], none, false, false, []⟩
    let s := s.modCore core fun k => { k with sb := k.sb ++ [e] }
    (some (sbSend s core id), s)

/-! ### Loads -/

/-- A hit of the L1: the tag matches and the lease stands (02 R53). -/
def l1Hit (s : State) (core slot line : Nat) (nc : Bool) : Option L1Line :=
  let unt := if nc && !isLocal s line then some slot else none
  (s.core core).l1.find? fun l => l.line == line && l.unt == unt && s.now < l.exp
/-- Allocate a line in the L1: an ended lease goes first, then the least recently used of the set (02 R54). -/
def l1Fill (s : State) (core : Nat) (l : L1Line) (h : Hint) : State :=
  s.modCore core fun k =>
    let rest := k.l1.filter fun x => !(x.line == l.line && x.unt == l.unt) && s.now < x.exp
    let inSet := rest.filter fun x => x.line % 1024 == l.line % 1024
    let rest := match (if inSet.length < 12 then none else inSet.getLast?) with
      | some v => rest.filter fun x => !(x.line == v.line && x.unt == v.unt)
      | none => rest
    { k with l1 := if h == .s then rest ++ [l] else l :: rest }
def l1Touch (s : State) (core : Nat) (l : L1Line) : State :=
  s.modCore core fun k => { k with l1 := l :: k.l1.filter fun x => !(x.line == l.line && x.unt == l.unt) }

/-- A lane of a load with the bytes of its line: the store buffer's bytes stand over them (02 R57, 03 R70). -/
def loadLane (s : State) (uid entry L core slot line off n : Nat) (nc : Bool) (d : LineData) (psn : Bool) : State :=
  let want := maskAt off n
  let (b, m, flag) := if isRegLine s line then (0, 0, false) else sbBytes s core line slot nc want
  let v := lineGet (lineMerge d b m) off n
  let p := flag || (psn && want &&& ~~~m != 0)
  s.modThread uid fun t => t.finish entry L (if p then 0 else v) p

/-- The carried poison values of a store's size (11 R272). -/
def carriesPoison (n : Nat) (bits : Nat) : Bool :=
  match n with
  | 2 => bits % 65536 == 0x7E5A || bits % 65536 == 0x7FDA
  | 4 => bits % 2 ^ 32 == 0x7FC05A5A
  | 8 => bits % 2 ^ 64 == 0x7FF8000000005A5A
  | 16 => bits % 2 ^ 128 == 0x7FC05A5A7FC05A5A7FC05A5A7FC05A5A
  | _ => false

/-! ### Sending one lane -/

/-- An older access of the thread to the same line is sent and not performed, so a younger one waits: a load or an atomic, or a
store that does not stand in the core's store buffer, whose bytes a load takes (03 R70, R74). -/
def Thread.olderInFlight (t : Thread) (s : State) (id : Nat) (va : Nat) : Bool :=
  let buffered (e : LogEntry) (L : Nat) : Bool :=
    (s.core t.core).sb.any fun b => b.from_.any fun c => c.uid == t.uid && c.entry == e.id && c.lanes.getLsbD L
  t.log.any fun e => e.id < id && (e.flight ||| e.moving) != 0 &&
    let near (L : Nat) : Bool := (e.addrs.getD L 0).toNat % 65536 / 128 == va % 65536 / 128
    match e.op with
    | .load _ _ | .atom _ _ => (lanesOf (e.flight ||| e.moving)).any near
    | .store _ _ => (lanesOf (e.flight ||| e.moving)).any fun L => near L && !buffered e L
    | _ => false
/-- A store buffer entry of the core is held by a move, or is to be translated afresh, and may be to this line at its new place: an
access waits behind it (03 R74, 05 R145). -/
def sbWaits (s : State) (core line : Nat) : Bool :=
  (s.core core).sb.any fun e => e.again || (e.onMove.isSome && e.line % 512 == line % 512 && e.line != line)

/-- Send a lane of a global access of the thread that is checked out; false when it still waits: translation and permission
first, then the watermarks (09 R224, 11 R266, R270). -/
def sendGlobal (walked : Option Walked) (e : LogEntry) (L : Nat) (s : State) : Bool × State :=
  let t := s.cur
  let va := e.addrs.getD L 0
  let n := memSize e.op
  let fault (s : State) (x : Trap) : Bool × State := (true, s.modCur fun t => t.modEntry e.id fun e => e.laneFault L x)
  let flight (s : State) : State := s.modCur fun t => t.modEntry e.id fun e => { e with flight := e.flight ||| laneBit L }
  let acc : Acc := match e.op with
    | .load _ _ => .read
    | _ => .write
  let slot := s.slotOf t
  if t.olderInFlight s e.id va.toNat then (false, s)
  else match xlat s t.core slot va acc (t.mode == .sup) walked with
  | (.pending, s) => (false, s)
  | (.fault x, s) => fault s x
  | (.ok pa cen, s) => if sbWaits s t.core (pa / 128) then (false, s) else match heldBy (s.marksOf t.team) 0 0 va.toNat n with
    | .wait => (false, s)
    | .aborted b => fault s ⟨COPY_ABORTED, 0, BitVec.ofNat 64 b⟩
    | .free =>
      let line := pa / 128
      let off := pa % 128
      let nc := inWindow (s.ctx slot) va.toNat
      match e.op with
      | .load _ h =>
        let want := maskAt off n
        let (_, m, _) := sbBytes s t.core line slot nc want
        if want &&& ~~~m == 0 && !isRegLine s line then (true, loadLane (flight s) t.uid e.id L t.core slot line off n nc 0 false)
        else
          let miss (s : State) : Bool × State :=
            let l : LoadReq := ⟨t.uid, e.id, L, va.toNat, line, slot, nc, cen, h, s.now + Config.l2Ticks⟩
            (true, ((flight s).modCore t.core fun k => { k with loads := k.loads ++ [l] }).post l.at_ (.l2LoadAnswer t.core line))
          if h == .nl || isRegLine s line then miss s
          else match l1Hit s t.core slot line nc with
            | some l => (true, loadLane (flight (l1Touch s t.core l)) t.uid e.id L t.core slot line off n nc l.data l.psn)
            | none => miss s
      | .atom op size =>
        let d := (e.data.getD L 0).toNat
        let a : AtomReq := ⟨op, off, size, BitVec.ofNat 64 (d % 256 ^ size), BitVec.ofNat 64 (d / 256 ^ size % 256 ^ size), e.dataP.getLsbD L⟩
        match sbAtom s t.core slot line (va.toNat / 128 * 128) nc cen a ⟨t.uid, e.id, laneBit L⟩ with
        | (some s, _) => (true, flight s)
        | (none, s) => (false, s)
      | _ =>
        let d := (e.data.getD L 0).toNat
        let psn := e.dataP.getLsbD L && !(!e.scalar && carriesPoison n d)
        let last := match e.op with
          | .store _ h => h == .nl
          | _ => false
        match sbStore s t.core slot line (va.toNat / 128 * 128) nc cen (lineAt off n d) (maskAt off n) psn last
            ⟨t.uid, e.id, laneBit L⟩ with
        | (some s, _) => (true, flight s)
        | (none, s) => (false, s)

/-! ### Scratchpads -/

/-- A scratchpad access at a team's allocation: the new bytes, and what a load or an atomic returns (11 R276, R277). -/
def scratchDo (m : Mem) (off : Nat) (e : LogEntry) (L : Nat) : Mem × Option (Nat × Bool) :=
  let d := (e.data.getD L 0).toNat
  match e.op with
  | .spLoad n => (m, some (Mem.load m off n, false))
  | .spStore n => (Mem.store m off n d, none)
  | .spAtom op =>
    let old := Mem.load m off 4
    if op == .fadd then
      if e.dataP.getLsbD L then (Mem.store m off 4 0x7FC05A5A, some (0x7FC05A5A, true))
      else
        let r := atomFadd 4 old (d % 2 ^ 32)
        (Mem.store m off 4 r.1, some (if r.2.1 then r.1 else old, r.2.1))
    else (Mem.store m off 4 (atomNew op 4 old (d % 2 ^ 32) (d / 2 ^ 32 % 2 ^ 32)).1, some (old, false))
  | _ => (m, none)

/-- The grid of a thread: one that runs, that is saved, or that has left with accesses open (06 R171, 14 R333). -/
def State.gridOfUid (s : State) (uid : Nat) : Option Grid :=
  match s.thread? uid with
  | some t => s.gridOf t
  | none => match s.saved.find? fun c => c.threads.any fun t => t.uid == uid with
    | some c => s.grid? c.cluster.grid
    | none => s.grids.find? fun g => g.left.contains uid
/-- Count the events of one FADD of a thread, wherever the thread has gone (08 R210, 11 R273, R276). -/
def faddEvents (s : State) (uid size m v : Nat) : State :=
  match s.gridOfUid uid with
  | none => s
  | some g => countFor s g.slot g.r.kentry (if size == 8 then 0 else 1) (atomFadd size m v).2.2

/-- Perform a lane at the scratchpad of a team; one that has exited reads zero and discards (01 R15). DESIGN CHOICE: what an
atomic returns that is discarded so is not stated; its lane receives zero with P = 0, as a load's does (log 64). -/
def scratchLane (s : State) (uid : Nat) (e : LogEntry) (L team off : Nat) : State :=
  match s.team? team with
  | some m =>
    if m.exited then s.modThread uid fun t => t.finish e.id L 0 false
    else
      let d := (e.data.getD L 0).toNat
      let s := match e.op with
        | .spAtom .fadd => if e.dataP.getLsbD L then s else faddEvents s uid 4 (Mem.load m.scratch off 4) (d % 2 ^ 32)
        | _ => s
      let (sc, r) := scratchDo m.scratch off e L
      let s := s.modTeam team fun m => { m with scratch := sc }
      match r with
      | some x => s.modThread uid fun t => t.finish e.id L x.1 x.2
      | none => s.modThread uid fun t => t.finishStore e.id L
  | none => s.modThread uid fun t => t.finish e.id L 0 false

/-- An older access of the same lane to the same bytes of another member's scratchpad is on its way (03 R74). -/
def Thread.olderScratch (t : Thread) (id L : Nat) (a : Dword) (n : Nat) : Bool :=
  t.log.any fun e => e.id < id && e.flight.getLsbD L && (match e.op with
    | .spLoad _ | .spStore _ | .spAtom _ =>
      let b := e.addrs.getD L 0
      bits b 19 13 == bits a 19 13 && bits a 0 19 < bits b 0 19 + memSize e.op && bits b 0 19 < bits a 0 19 + n
    | _ => false)

/-- A lower lane of the same instruction touches the same word of the same scratchpad and has still to be sent: the lanes of a word go
in ascending order (02 R50). -/
def Thread.lowerScratch (t : Thread) (id L : Nat) (a : Dword) (n : Nat) : Bool :=
  t.log.any fun e => e.id == id && (lanesOf e.unsent).any fun K =>
    let b := e.addrs.getD K 0
    K < L && bits b 19 5 == bits a 19 5 && bits a 2 17 < bits b 2 17 + (n + 3) / 4 && bits b 2 17 < bits a 2 17 + (n + 3) / 4
/-- Send a lane of a scratchpad access: at once on the own core, by a message to another member (01 R15). It waits behind the
watermarks of the member (04 R105). -/
def sendScratch (e : LogEntry) (L : Nat) (s : State) : Bool × State :=
  let t := s.cur
  let n := memSize e.op
  let fault (s : State) (x : Trap) : Bool × State := (true, s.modCur fun t => t.modEntry e.id fun e => e.laneFault L x)
  let a := e.addrs.getD L 0
  match scratchAddr s t.team a n with
  | .error d => fault s ⟨ACCESS_VIOLATION, d, a⟩
  | .ok (team, off) =>
    if t.olderScratch e.id L a n || t.lowerScratch e.id L a n then (false, s)
    else match heldBy (s.marksOf team) 1 0 off n with
    | .wait => (false, s)
    | .aborted b => fault s ⟨COPY_ABORTED, 0, BitVec.ofNat 64 b⟩
    | .free =>
      if team == t.team then (true, scratchLane s t.uid e L team off)
      else
        let (id, s) := s.fresh
        let s := s.modCur fun t => t.modEntry e.id fun e => { e with flight := e.flight ||| laneBit L }
        (true, State.post { s with scratchMsgs := s.scratchMsgs ++ [⟨id, t.uid, e.id, L, team⟩] } (s.now + Config.meshTicks)
          (.memberScratchpadAccess id))

end Sys2Proof.Machine
end

