-- ==== Sys2Proof/Machine/Remote.lean ====
section
/-! DEFINITION. Remote windows and the source side of remote streams: RPUT, RPUTF, RGET, RATOM (11 R285 to R287, 05 R148 to
R150, 01 R19 to R21), their acknowledgements and answers, and the outcomes a FENCE.SPAN reports (11 R280). -/
namespace Sys2Proof.Machine

/-- Window and offset as TRAPADDR lays them out (11 R280). -/
def winAddr (win off : Nat) : Dword := BitVec.ofNat 64 (win % 64 * 2 ^ 58 + off % 2 ^ 58)

/-- A destination beyond the cell of a package that has isolated itself: an access there is HOME_LOST (05 R138). -/
def beyondCell (s : State) (span pkg : Nat) : Bool :=
  s.isolated && !(span == spanId s && cellOf s pkg == cellOf s s.self)
/-- The path the next request takes: a free choice among those that are left (log 3); one with none left takes none. -/
def nextPath (s : State) (span pkg n : Nat) : Fin 4 :=
  let ps := pathsTo s span pkg
  Fin.ofNat 4 (ps.getD (Config.freePath (s.free + n) % max 1 ps.length) 0)
/-- A request is counted on the path that it takes (05 R149). -/
def countPath (s : State) (span pkg n : Nat) (counts : List Nat) : List Nat :=
  if (pathsTo s span pkg).isEmpty then counts else modAt counts (nextPath s span pkg n).val (· + 1)

/-- The four words of a window entry, from the core's cache of 8 entries for a context or from the table (01 R19, R21):
none while the read is pending; one that cannot be read counts as V = 0 (15 R407). -/
def windowEntry (s : State) (core slot win : Nat) : Option (List Dword) × State :=
  match (s.core core).rwc.find? fun r => r.1 == slot && r.2.1 == win with
  | some r => (some r.2.2, s)
  | none =>
    -- the core sends nothing while its replay buffer is full (11 R268)
    if replayFull s core then (none, s)
    else match devRead s (dieOf core) slot true ((s.ctx slot).rwtbase + BitVec.ofNat 64 (32 * win)) 32 with
    | (.pending, s) => (none, s)
    | (.fault _, s) => (some [0, 0, 0, 0], s)
    | (.ok v psn, s) =>
      let w := if psn then [0, 0, 0, 0] else (List.range 4).map fun i => (BitVec.ofNat 64 (v / 2 ^ (64 * i)) : Dword)
      let keep (k : Core) : List (Nat × Nat × List Dword) :=
        (k.rwc.filter fun r => r.1 != slot) ++ ((slot, win, w) :: (k.rwc.filter fun r => r.1 == slot)).take 8
      (some w, s.modCore core fun k => { k with rwc := keep k })

def winDspan (w : List Dword) : Nat := bits (w.getD 0 0) 8 10
def winDpkg (w : List Dword) : Nat := bits (w.getD 0 0) 18 10
def winDctx (w : List Dword) : Nat := bits (w.getD 0 0) 28 16
def winBase (w : List Dword) : Nat := bits (w.getD 1 0) 0 57
def winSize (w : List Dword) : Nat := bits (w.getD 2 0) 0 57
def winKey (w : List Dword) : Word := (w.getD 3 0).truncate 32

/-- The descriptor and entry checks of 11 R286, first failure first: `right` is the bit of word 0, `ops` whether [11:8]
may name an operation. -/
def windowCheck (desc : Dword) (w : List Dword) (right : Nat) (ops : Bool) (offs : List Nat) (n : Nat) : Option (Nat × Nat) :=
  let first := offs.getD 0 0
  let w0 := w.getD 0 0
  if bits desc 6 2 != 0 || bits desc 12 52 != 0 || (if ops then decide (6 < bits desc 8 4) else bits desc 8 4 != 0) then some (4, first)
  else if !bit w0 0 || bits w0 44 20 != 0 || bits w0 4 4 != 0 || bits (w.getD 1 0) 57 7 != 0 || bits (w.getD 2 0) 57 7 != 0
      || bits (w.getD 3 0) 32 32 != 0 then some (0, first)
  else if !bit w0 right then some (1, first)
  else match offs.find? fun o => winSize w < o + n with
    | some o => some (2, o)
    | none => none

/-! ### The stream table (05 R149) -/

def StreamEnt.is (e : StreamEnt) (dspan dpkg dctx : Nat) : Bool := e.dspan == dspan && e.dpkg == dpkg && e.dctx == dctx
/-- A flag, or a send counted as one, is acknowledged: the oldest leave as far as they are (05 R149). -/
def StreamEnt.ackFlag (e : StreamEnt) (id : Nat) : StreamEnt :=
  { e with flags := (e.flags.map fun f => if f.1 == id then (id, true) else f).dropWhile Prod.snd }
def modStream (s : State) (slot dspan dpkg dctx : Nat) (f : StreamEnt → StreamEnt) : State :=
  s.modCtx slot fun c => { c with streams := c.streams.map fun e => if e.is dspan dpkg dctx then f e else e }
/-- The entry of a destination, taken fresh where there is none (20 R395); none where it must wait. -/
def takeStream (s : State) (slot dspan dpkg dctx : Nat) : Option (StreamEnt × State) :=
  let c := s.ctx slot
  match c.streams.find? fun e => e.is dspan dpkg dctx with
  | some e => if e.closing.isSome then none else some (e, s)
  | none =>
    if 64 ≤ c.streams.length then none
    else
      let e : StreamEnt := ⟨dspan, dpkg, dctx, 0, [0, 0, 0, 0], 0, [], none⟩
      some (e, s.modCtx slot fun c => { c with streams := c.streams ++ [e] })

/-- An entry whose requests are all acknowledged frees, after a close of its epoch if that counted an RPUT (05 R149, R150). -/
def streamSettle (s : State) (slot dspan dpkg dctx : Nat) : State :=
  match (s.ctx slot).streams.find? fun e => e.is dspan dpkg dctx with
  | none => s
  | some e =>
    if e.open_ != 0 || !e.flags.isEmpty || e.closing.isSome then s
    else if e.counts.all fun n => n == 0 then
      s.modCtx slot fun c => { c with streams := c.streams.filter fun x => !x.is dspan dpkg dctx }
    else
      let path := (nextPath s dspan dpkg 0).val
      let (id, s) := s.fresh
      let s := modStream { s with free := s.free + 1 } slot dspan dpkg dctx fun e => { e with closing := some id }
      let due := s.now + (s.ctx slot).timeout
      let r : HomeReq := ⟨id, s.self, 0, false, 0, 0, false, none, false⟩
      let s : State := { s with reqs := s.reqs ++ [⟨id, dpkg, .ntr, 0, due, .close slot dspan dpkg dctx e.epoch path, r, false, false, false⟩] }
      (s.sayTo dspan dpkg (.close dspan dpkg dctx e.epoch id path)).post due (.requestTimeout id)

/-- The source of this package's requests for a context entry. -/
def streamId (s : State) (slot : Nat) : StreamId := ⟨spanId s, s.self, (s.ctx slot).num⟩

/-- Record a request that left the span, with its timer (05 R134). -/
def sendRemote (s : State) (id slot dpkg : Nat) (kind : HomeKind) (f : ReqFor) : State :=
  let due := s.now + (s.ctx slot).timeout
  let r : HomeReq := ⟨id, s.self, 0, false, 0, 0, false, none, false⟩
  State.post { s with reqs := s.reqs ++ [⟨id, dpkg, kind, 0, due, f, r, false, false, false⟩] } due (.requestTimeout id)

/-! ### Forming requests (11 R286) -/

/-- The aligned 64-byte blocks that some lanes reach, ascending, each with its lanes. -/
def blocksOf (base : Nat) (lanes : List (Nat × Nat)) : List (Nat × List (Nat × Nat)) :=
  let bs := (lanes.map fun l => (base + l.2) / 64).foldl (fun acc b => if acc.contains b then acc else insert b acc) []
  bs.map fun b => (b, lanes.filter fun l => (base + l.2) / 64 == b)
where
  insert (x : Nat) : List Nat → List Nat
    | [] => [x]
    | y :: r => if x < y then x :: y :: r else y :: insert x r

/-- Send the requests of one RPUT, block by block. -/
def sendPuts (s : State) (slot : Nat) (win : Nat) (w : List Dword) (grid : Nat) (val : Nat → Lane) :
    List (Nat × List (Nat × Nat)) → State
  | [] => s
  | (b, ls) :: rest =>
    let dspan := winDspan w
    let dpkg := winDpkg w
    let dctx := winDctx w
    let path := nextPath s dspan dpkg 0
    let counted := countPath s dspan dpkg 0
    let (id, s) := s.fresh
    let s : State := { s with free := s.free + 1 }
    let e := ((s.ctx slot).streams.find? fun e => e.is dspan dpkg dctx).getD ⟨dspan, dpkg, dctx, 0, [0, 0, 0, 0], 0, [], none⟩
    -- ascending lanes: the highest lane's value stands
    let step (acc : Nat × Nat) (l : Nat × Nat) : Nat × Nat :=
      let k := (winBase w + l.2) % 64
      let hole := (256 ^ 4 - 1) * 256 ^ k
      (acc.1 - (acc.1 &&& hole) + (val l.1).v.toNat * 256 ^ k, acc.2 ||| (15 * 2 ^ k))
    let dm := ls.foldl step (0, 0)
    let psn := ls.any fun l => (val l.1).p && !carriesPoison 4 (val l.1).v.toNat
    let m : PutMsg := ⟨id, streamId s slot, dctx, winKey w, b * 64, BitVec.ofNat 512 dm.1, BitVec.ofNat 64 dm.2, psn, e.epoch, path⟩
    let s := modStream s slot dspan dpkg dctx fun e => { e with counts := counted e.counts, open_ := e.open_ + 1 }
    let s := sendRemote s id slot dpkg .wrf
      (.put s.cur.uid grid slot (winAddr win ((ls.head?.map Prod.snd).getD 0)) false dspan dpkg dctx)
    sendPuts (s.sayTo dspan dpkg (.put dspan dpkg m)) slot win w grid val rest

/-- Send the RPUTF of a lane: it carries the epoch and its counts, which then begin afresh (05 R149). -/
def sendFlag (s : State) (slot win : Nat) (w : List Dword) (grid off : Nat) (x : SVal) (e : StreamEnt) : State :=
  let dspan := winDspan w
  let dpkg := winDpkg w
  let dctx := winDctx w
  let (id, s) := s.fresh
  let psn := x.p && !carriesPoison 8 x.v.toNat
  let m : FlagMsg := ⟨id, streamId s slot, dctx, winKey w, winBase w + off, x.v, psn, e.epoch, e.counts⟩
  let s := modStream s slot dspan dpkg dctx fun e => { e with counts := [0, 0, 0, 0], epoch := e.epoch + 1, flags := e.flags ++ [(id, false)] }
  (sendRemote s id slot dpkg .wrf (.put s.cur.uid grid slot (winAddr win off) true dspan dpkg dctx)).sayTo dspan dpkg (.flag dspan dpkg m)

/-- The lanes of an RGET or RATOM entry that are not sent yet: sent now, as long as the replay buffer has room; false when
some still wait (11 R268, R286, R287). -/
def sendGets (e : LogEntry) (s : State) : Bool × State :=
  let t := s.cur
  let slot := s.slotOf t
  let todo := lanesOf (e.unperformed &&& ~~~(e.flight ||| e.faulted))
  let off (L : Nat) : Nat := bits (e.addrs.getD L 0) 0 58
  let w := e.win
  let mark (s : State) (m : LaneMask) : State := s.modCur fun t => t.modEntry e.id fun e => { e with flight := e.flight ||| m }
  match e.op with
  | .rget =>
    (blocksOf (winBase w) (todo.map fun L => (L, off L))).foldl (fun (r : Bool × State) b =>
      if replayFull r.2 t.core then (false, r.2)
      else
        let (id, s) := r.2.fresh
        let m := b.2.foldl (fun a l => a ||| (15 * 2 ^ ((winBase w + l.2) % 64))) 0
        let lanes := b.2.foldl (fun a l => a ||| laneBit l.1) 0
        let s := sendRemote (mark s lanes) id slot (winDpkg w) .ntr (.lanes t.uid e.id lanes)
        (r.1, s.sayTo (winDspan w) (winDpkg w) (.get (winDspan w) (winDpkg w) ⟨id, streamId s slot, winDctx w, winKey w, b.1 * 64, BitVec.ofNat 64 m⟩)))
      (true, s)
  | .ratom op =>
    todo.foldl (fun (r : Bool × State) L =>
      if replayFull r.2 t.core then (false, r.2)
      else
        let (id, s) := r.2.fresh
        let d : Dword := (e.data.getD L 0).truncate 64
        let s := sendRemote (mark s (laneBit L)) id slot (winDpkg w) .atf (.lanes t.uid e.id (laneBit L))
        (r.1, s.sayTo (winDspan w) (winDpkg w) (.ratom (winDspan w) (winDpkg w)
          ⟨id, streamId s slot, winDctx w, winKey w, winBase w + off L, op, d, e.dataP.getLsbD L⟩)))
      (true, s)
  | _ => (true, s)
/-- Whether a path count of a stream would reach 2^32 − 1 with some more requests (05 R149). -/
def countsOverflow (s : State) (e : StreamEnt) (n : Nat) : Bool :=
  let after := (List.range n).foldl (fun c i => countPath s e.dspan e.dpkg i c) e.counts
  after.any fun c => 2 ^ 32 - 1 ≤ c

/-- Whether an RPUT or RPUTF entry waits for a stream table entry, or for the oldest of four flags (05 R149). -/
def postedWaits (s : State) (slot : Nat) (e : LogEntry) : Bool :=
  match (s.ctx slot).streams.find? fun x => x.is (winDspan e.win) (winDpkg e.win) (winDctx e.win) with
  | some x => x.closing.isSome || (e.op == .rputf && 4 ≤ x.flags.length)
  | none => 64 ≤ (s.ctx slot).streams.length
/-- Send the requests of an RPUT or RPUTF entry, which frees it; false while its stream has no room (11 R286, 05 R149). A
count that would overflow only now faults every lane, of which none is sent (log 65). -/
def sendPosted (e : LogEntry) (s : State) : Bool × State :=
  let t := s.cur
  let slot := s.slotOf t
  let w := e.win
  let win := bits e.desc 0 6
  let grid := ((s.gridOf t).map Grid.id).getD 0
  let offs := (lanesOf e.unperformed).map fun L => (L, bits (e.addrs.getD L 0) 0 58)
  let sent (s : State) : Bool × State := (true, s.modCur fun t => t.modEntry e.id fun e => { e with performed := e.active })
  if replayFull s t.core then (false, s)
  else match takeStream s slot (winDspan w) (winDpkg w) (winDctx w) with
  | none => (false, s)
  | some (ent, s') =>
    if e.op == .rputf then
      if 4 ≤ ent.flags.length then (false, s)
      else
        let x := offs.headD (0, 0)
        sent (sendFlag s' slot win w grid x.2 ⟨(e.data.getD x.1 0).truncate 64, e.dataP.getLsbD x.1⟩ ent)
    else
      let blocks := blocksOf (winBase w) offs
      if countsOverflow s ent blocks.length then
        (true, s.modCur fun t => t.modEntry e.id fun y =>
          offs.foldl (fun y x => y.laneFault x.1 ⟨REMOTE_WINDOW, 3, winAddr win x.2⟩) y)
      else sent (sendPuts s' slot win w grid (fun L => ⟨(e.data.getD L 0).truncate 32, e.dataP.getLsbD L⟩) blocks)
/-- Send a remote entry; from a package that has isolated itself nothing leaves its cell (05 R138). -/
def sendRemotes (e : LogEntry) (s : State) : Bool × State :=
  if beyondCell s (winDspan e.win) (winDpkg e.win) then
    (true, s.modCur fun t => t.modEntry e.id fun e => e.fault (e.unperformed &&& ~~~e.flight) HOME_LOST 0)
  else match e.op with
    | .rput | .rputf => sendPosted e s
    | _ => sendGets e s

/-! ### Acknowledgements and answers -/

/-- Keep an outcome with the grid that issued the request, or with the context when the grid is gone (11 R280). -/
def addOutcome (s : State) (grid slot : Nat) (o : PendOutcome) : State :=
  match s.grid? grid with
  | some g => if g.err then s else s.modGrid grid fun g => { g with outcomes := g.outcomes ++ [o] }
  | none => s.modCtx slot fun c => { c with outcomes := c.outcomes ++ [o] }

def dropReq (s : State) (id : Nat) : State := { s with reqs := s.reqs.filter fun r => r.id != id }

/-- A put or a flag is acknowledged, and LCT rises (03 R72), or it is refused, has timed out or is lost. -/
def putDone (s : State) (r : OutReq) (o : Option EndKind) : State :=
  match r.for_ with
  | .put uid grid slot addr flag dspan dpkg dctx =>
    let s := dropReq s r.id
    let s := match o with
      | some kind => addOutcome s grid slot ⟨kind, addr⟩
      | none => s.modThread uid fun t => { t with lct := max t.lct s.now }
    let s := modStream s slot dspan dpkg dctx fun e =>
      if flag then e.ackFlag r.id else { e with open_ := e.open_ - 1 }
    streamSettle s slot dspan dpkg dctx
  | _ => s

/-- REMOTE ACK (05 R149, 01 R20). -/
def remoteAck (s : State) (id : Nat) (ok : Bool) : State :=
  match s.reqs.find? fun r => r.id == id && !r.ended with
  | some r => putDone s r (if ok then none else some .refused)
  | none => s

/-- REMOTE ANSWER (11 R287): a refusal faults its lanes with REMOTE_WINDOW, detail 0x10; an atomic's answer raises LCT
(03 R72). -/
def remoteAnswer (s : State) (a : RemoteAns) : State :=
  match s.reqs.find? fun r => r.id == a.id && !r.ended with
  | none => s
  | some r => match r.for_ with
    | .lanes uid entry lanes =>
      let s := dropReq s r.id
      if !a.ok then s.modThread uid fun t => t.modEntry entry fun e => e.fault lanes REMOTE_WINDOW 0x10
      else s.modThread uid fun t => match t.log.find? fun e => e.id == entry with
        | none => t
        | some e =>
          let t := if e.op == .rget then t else { t with lct := max t.lct s.now }
          (lanesOf lanes).foldl (fun t L =>
            let v := match e.op with
              | .rget => a.data.toNat / 256 ^ ((winBase e.win + bits (e.addrs.getD L 0) 0 58) % 64) % 256 ^ 4
              | _ => a.data.toNat % 256 ^ 8
            t.finish entry L (if a.psn then 0 else v) a.psn) t
    | _ => s

/-- EPOCH CLOSE ACK (05 R150): the entry frees. -/
def closeAck (s : State) (id : Nat) : State :=
  match s.reqs.find? fun r => r.id == id with
  | none => s
  | some r => match r.for_ with
    | .close slot dspan dpkg dctx _ _ =>
      (dropReq s id).modCtx slot fun c => { c with streams := c.streams.filter fun x => !(x.is dspan dpkg dctx && x.closing == some id) }
    | _ => s

/-- A request of a kind-2 send is acknowledged as an RPUTF is. -/
def sendSettle (s : State) (slot id : Nat) (dst : Option (Nat × Nat × Nat)) : State :=
  match dst with
  | none => s
  | some (a, b, c) => streamSettle (modStream s slot a b c fun e => e.ackFlag id) slot a b c

/-- The span that a request goes to. -/
def reqSpan (s : State) (r : OutReq) : Nat :=
  match r.for_ with
  | .put _ _ _ _ _ span _ _ | .close _ span _ _ _ _ => span
  | .send _ _ _ _ (some d) | .sendw _ _ _ (some d) => d.1
  | .lanes uid entry _ =>
    let e (t : Thread) : Option LogEntry := if t.uid == uid then t.log.find? fun e => e.id == entry else none
    ((s.allThreads ++ s.saved.flatMap SavedCluster.threads).findSome? e).elim (spanId s) fun e => winDspan e.win
  | _ => spanId s

/-- REQUEST TIMEOUT (05 R135, R150): the request ends and its home is sent a CANCEL. -/
def requestTimeout (s : State) (id : Nat) : State :=
  match s.reqs.find? fun r => r.id == id && !r.ended with
  | none => s
  | some r =>
    if s.now < r.due then s
    else
      let s0 := s
      let s := s.sayTo (reqSpan s r) r.ep (.cancel (reqSpan s r) r.ep r.id)
      let detail := match r.kind with
        | .rds | .ntr | .prf => 0
        | _ => 1
      let ended : State := { s with reqs := s.reqs.map fun q => if q.id == id then { q with ended := true } else q }
      match r.for_ with
      | .line slot nc => if r.kind == .prf then ended
        else lineFault ended r.line (if nc then some slot else none) (r.kind != .rds) REMOTE_TIMEOUT detail
      | .write wid => match s.l2w.find? fun w => w.id == wid with
        | some w => lineOver (l2Fault (dropReq s id) w REMOTE_TIMEOUT detail) r.line
        | none => lineOver (dropReq s id) r.line
      | .held ws => ws.foldl (fun s w => l2Fault s w REMOTE_TIMEOUT detail) (dropReq s id)
      | .untracked _ | .writeback => lineOver (dropReq s id) r.line
      | .put .. => putDone s r (some .timedOut)
      | .lanes uid entry lanes =>
        (dropReq s id).modThread uid fun t => t.modEntry entry fun e => e.fault lanes REMOTE_TIMEOUT detail
      | .send _ grid slot desc dst => sendSettle (addOutcome (dropReq s id) grid slot ⟨.timedOut, desc⟩) slot id dst
      -- the sender waits for the answer: it learns of the timeout when it looks (13 R320)
      | .sendw _ slot _ dst => sendSettle ended slot id dst
      | .close slot dspan dpkg dctx epoch path =>
        -- sent again until it is acknowledged, on another path where one exists
        let others := (pathsTo s0 dspan dpkg).filter fun p => p != path
        let path := others.getD (Config.freePath s0.free % max 1 others.length) path
        let due := s0.now + (s0.ctx slot).timeout
        let s : State := { s0 with
          free := s0.free + 1
          reqs := s0.reqs.map fun q => if q.id == id then { q with due := due, for_ := .close slot dspan dpkg dctx epoch path } else q }
        (s.sayTo dspan dpkg (.close dspan dpkg dctx epoch id path)).post due (.requestTimeout id)

/-! ### Issue (11 R286) -/

/-- Checks of a remote instruction at issue, then its body on the window's words and the lanes with their offsets. -/
def remoteIssue (s : State) (a : SReg) (b : XOpnd) (lanes : LaneMask) (n right : Nat) (ops : Bool)
    (k : State → Nat → List Dword → List (Nat × Nat) → Res) : Res :=
  let t := s.cur
  let ls := lanesOf lanes
  if ls.isEmpty then .ok s
  else
    let desc := t.getS a
    if desc.p || ls.any (fun L => (t.getX64 b L).p) then .trap s poisonTrap
    else
      let offs := ls.map fun L => (L, (t.getX64 b L).v.toNat)
      match offs.find? fun o => o.2 % n != 0 with
      -- DEDUCED (log 35): a lane's address is its window and offset
      | some o => .trap s ⟨MISALIGNED, 0, winAddr (bits desc.v 0 6) o.2⟩
      | none =>
        let win := bits desc.v 0 6
        match windowEntry s t.core (s.slotOf t) win with
        | (none, s) => .stall s
        | (some w, s) => match windowCheck desc.v w right ops (offs.map Prod.snd) n with
          | some (d, off) => .trap s ⟨REMOTE_WINDOW, d, winAddr win off⟩
          | none => k s win w offs

end Sys2Proof.Machine
end

