-- ==== Sys2Proof/Machine/Pump.lean ====
section
/-! DEFINITION. What drives the operand log (11 R266 to R268): sending lanes in program order, cache maintenance by ranges
(11 R281 to R284), answers of the L2 and of the store buffer, releases and acquires (03 R77, R79, 11 R279, R280). -/
namespace Sys2Proof.Machine

/-! ### Cache maintenance (11 R282, R284) -/

/-- Act on the copies of one line in the package L2: `inv` for CINV. None while a lease is waited for. -/
def l2Clean (s : State) (slot line : Nat) (inv : Bool) : Option State × State :=
  let tracked (s : State) : Option State × State :=
    match s.l2get line none with
    | none => (some s, s)
    | some L =>
      if isLocal s line then
        (some (if L.st == .dirty then (memPut s line L.data).l2mod line none fun L => { L with st := .clean } else s), s)
      else if L.st == .m || L.st == .o || inv then
        if s.now < L.exp then (none, s.post L.exp (.leaseExpiry line)) else (some (evictLine s slot L), s)
      else (some s, s)
  match s.l2get line (some slot) with
  | none => tracked s
  | some L =>
    let dm := (L.unt.map Prod.snd).getD 0
    if inv then
      (if s.now < L.exp then (none, s.post L.exp (.leaseExpiry line)) else tracked (s.l2drop line (some slot)))
    else if dm == 0 then tracked s
    else
      tracked ((sendUntracked s slot L dm).l2mod line (some slot) fun L => { L with unt := some (slot, 0) })

/-- The requests that were sent between two states. -/
def newReqs (old s : State) : List Nat :=
  (s.reqs.filter fun r => !(old.reqs.any fun q => q.id == r.id)).map OutReq.id
/-- The first step of CFLUSH and CINV: the core's store buffer entries in the range are sent, and awaited before the first line
is acted on; the lane counts as in flight from then on (11 R282). -/
def rangeDrain (slot : Nat) (e : LogEntry) (s : State) : Bool × State :=
  let mine (b : SbEntry) : Bool := !b.handed && b.slot == slot && decide (e.next / 128 * 128 ≤ b.va) && decide (b.va < e.stop)
  let s := sbSendAll s s.cur.core mine
  if (s.core s.cur.core).sb.any mine then (false, s)
  else (true, s.modCur fun t => t.modEntry e.id fun e => { e with flight := 1 })

/-- One line of a range operation of the thread that is checked out; false when it waits. The entry frees when every
write-back that it started has been performed (11 R282). DESIGN CHOICE: one that has timed out, is lost or is refused counts as
over, and the instruction does not fault for it (log 83). -/
def rangeLine (walked : Option Walked) (id : Nat) (s : State) : Bool × State :=
  let t := s.cur
  match t.log.find? fun e => e.id == id with
  | none => (true, s)
  | some e =>
    let slot := s.slotOf t
    if e.stop ≤ e.next then
      if s.reqs.any fun r => !r.ended && e.wbs.contains r.id then (false, s) else (true, s.modCur fun t => t.finishStore id 0)
    else if e.op != .icinv && replayFull s t.core then (false, s)
    else if e.op != .icinv && e.flight == 0 then rangeDrain slot e s
    else
      let va : Dword := BitVec.ofNat 64 e.next
      match xlat s t.core slot va .read (t.mode == .sup) walked with
      | (.pending, s) => (false, s)
      | (.fault x, s) => (true, s.modCur fun t => t.modEntry id fun e => e.laneFault 0 x)
      | (.ok pa _, s) =>
        let line := pa / 128
        let next (s : State) : Bool × State :=
          (true, s.modCur fun t => t.modEntry id fun e => { e with next := (e.next / 128 + 1) * 128 })
        if e.op == .icinv then
          next { s with cores := s.cores.map fun k => { k with icache := k.icache.filter fun l => l.1 != line } }
        else
          let s := sbSendAll s t.core fun b => b.line == line
          if (s.core t.core).sb.any fun b => b.line == line && !b.handed then (false, s)
          else
            let s := if e.op == .cinv then s.modCore t.core fun k => { k with l1 := k.l1.filter fun l => l.line != line } else s
            match l2Clean s slot line (e.op == .cinv) with
            | (some r, _) => next (r.modCur fun t => t.modEntry id fun e => { e with wbs := newReqs s r ++ e.wbs })
            | (none, s) => (false, s)

/-- Up to `n` lines of a range operation. -/
def rangeRun (walked : Option Walked) (id : Nat) : Nat → State → State
  | 0, s => s
  | n + 1, s => match rangeLine walked id s with
    | (true, s) => rangeRun walked id n s
    | (false, s) => s

/-! ### Sending -/

/-- Send some lanes, one after another, as long as the replay buffer has room; false when one still waits (11 R268). -/
def sendLanes (send : Nat → State → Bool × State) (lanes : List Nat) (s : State) : Bool × State :=
  lanes.foldl (fun r L =>
    if replayFull r.2 r.2.cur.core then (false, r.2)
    else match send L r.2 with
      | (ok, s) => (r.1 && ok, s)) (true, s)
/-- A store with the hint .S or .NL: each store buffer entry that it wrote is sent as soon as the last of its lanes has entered
it (11 R271). -/
def hintSend (id : Nat) (s : State) : State :=
  match s.cur.log.find? fun e => e.id == id with
  | none => s
  | some e =>
    let at_ (L : Nat) : Nat := (e.addrs.getD L 0).toNat / 128
    let todo := lanesOf (e.unperformed &&& ~~~(e.flight ||| e.faulted))
    sbSendAll s s.cur.core fun b => b.from_.any fun c => c.uid == s.cur.uid && c.entry == id
      && (lanesOf c.lanes).all fun K => todo.all fun L => at_ L != at_ K

/-- Send the lanes of an entry that are not sent; false when a lane still waits. -/
def pumpEntry (walked : Option Walked) (e : LogEntry) (s : State) : Bool × State :=
  let todo := lanesOf (e.unperformed &&& ~~~(e.flight ||| e.faulted ||| e.moving))
  match e.op with
  | .store _ h => match sendLanes (sendGlobal walked e) todo s with
    | (ok, s) => (ok, if h == .normal then s else hintSend e.id s)
  | .load _ _ | .atom _ _ => sendLanes (sendGlobal walked e) todo s
  | .spLoad _ | .spStore _ | .spAtom _ => sendLanes (sendScratch e) todo s
  | .cflush | .cinv | .icinv =>
    let s := rangeRun walked e.id 600 s
    (!(s.cur.log.any fun x => x.id == e.id && x.next < x.stop && x.faults.isEmpty), s)
  | .rget | .ratom _ | .rput | .rputf => sendRemotes e s

/-- Entries in program order: a younger one only after every older one is sent in every lane (11 R267); one that has faulted
or is held keeps back those behind it. -/
def pumpEntries (walked : Option Walked) : List Nat → State → State
  | [], s => s
  | id :: rest, s =>
    match s.cur.log.find? fun e => e.id == id with
    | none => pumpEntries walked rest s
    | some e =>
      if e.held then s
      else match pumpEntry walked e s with
        | (false, s) => s
        | (true, s) =>
          if s.cur.log.any fun e => e.id == id && !e.faults.isEmpty then s else pumpEntries walked rest s

/-- Drive the log of the thread that is checked out, and free what has been performed. -/
def pumpLog (walked : Option Walked) (s : State) : State :=
  if s.cur.log.isEmpty then s
  else (pumpEntries walked (s.cur.liveLog.map LogEntry.id) s).modCur Thread.sweepLog

/-! ### Issue into the log -/

/-- Take an operand log entry and send what can be sent (11 R267); an instruction that finds 8 in use waits. With no active
lane there is nothing to do. -/
def logIssue (s : State) (op : MemOp) (dst : Dst) (scalar : Bool) (active : LaneMask) (addrs : List Dword)
    (data : List (BitVec 128)) (dataP : LaneMask) (desc : Dword) (win : List Dword) (next stop : Nat) : Res :=
  let t := s.cur
  if active == 0 then .ok s
  else if 8 ≤ t.log.length then .stall s
  else
    let e : LogEntry := ⟨t.nextEntry, s.iw, t.pc, op, dst, scalar, t.mode == .sup, active, 0, 0, [], 0, false, addrs, data, dataP,
      next, stop, [], desc, win⟩
    .ok (pumpLog none (s.modCur fun t => { t with log := t.log ++ [e], nextEntry := t.nextEntry + 1 }))

/-! ### Answers -/

/-- L2 LOAD ANSWER (02 R53, R59): the loads of a core that have arrived and wait on a line; those of package register space read it
(17 R365). A group that has been evicted meanwhile gets its answer too (14 R333). -/
def loadAnswer (s : State) (core line : Nat) : State :=
  ((s.core core).loads.filter fun l => l.line == line && l.at_ ≤ s.now).foldl (fun s l =>
    let gone (s : State) : State := s.modCore core fun k => { k with loads := k.loads.filter fun x => x != l }
    match ((s.anyThread? l.uid).bind fun t => t.log.find? fun e => e.id == l.entry) with
    | none => gone s
    | some e =>
      let n := memSize e.op
      let off := (e.addrs.getD l.lane 0).toNat % 128
      if ownReg s line then
        match (if n == 8 && off % 8 == 0 then regRead s (lineOff line - 2 ^ 39 + off) else some 0) with
        | some v => loadLane (gone s) l.uid l.entry l.lane core l.slot line off n l.nc (lineAt off n v) false
        | none => s.post (s.now + Config.pollTicks) (.l2LoadAnswer core line)
      else match (if isRegLine s line then regAsk s l.slot line off n else l2ReadAt s l.slot line l.nc l.cen l.at_) with
        | (.pending, s) => s
        | (.lost, s) => (gone s).modThread l.uid fun t => t.modEntry l.entry fun e => e.fault (laneBit l.lane) HOME_LOST 0
        | (.data d psn, s) =>
          let s :=
            if isRegLine s line then s.l2drop line (some l.slot)
            else if l.h == .nl then s
            else
              let (exp, s) := grantLease s l.slot line l.nc
              l1Fill s core ⟨line, if l.nc && !isLocal s line then some l.slot else none, d, exp, psn⟩ l.h
          -- an access of package register space that is not of 8 aligned bytes returns zero (17 R365)
          let zero := isRegLine s line && !(n == 8 && off % 8 == 0)
          loadLane (gone s) l.uid l.entry l.lane core l.slot line off n l.nc (if zero then 0 else d) (psn && !zero)) s

/-- STORE BUFFER ANSWER (02 R56, 03 R72): the lanes of the entry are performed, LCT rises, the entry frees. -/
def sbAnswer (s : State) (core id T : Nat) : State :=
  match (s.core core).sb.find? fun e => e.id == id with
  | none => s
  | some e =>
    let s := s.modCore core fun k => k.dropSb id
    e.from_.foldl (fun (s : State) (c : Contrib) =>
      let s : State := match e.atom with
        | some a =>
          let v := (lineGet e.data 0 8)
          let s := if a.op == AtomOp.fadd && !e.psn then faddEvents s c.uid a.size (v % 256 ^ a.size) (a.opnd.toNat % 256 ^ a.size) else s
          (lanesOf c.lanes).foldl (fun s L => s.modThread c.uid fun t => t.finish c.entry L v e.psn) s
        | none => (lanesOf c.lanes).foldl (fun s L => s.modThread c.uid fun t => t.finishStore c.entry L) s
      let s := s.modThread c.uid fun t => { t with lct := max t.lct T }
      -- a tail stamp is written (04 R109)
      match s.copy? c.uid with
      | some k => (s.modCopy k.id fun k => { k with sent := [], stage := .stamped }).post s.now (.copyStampPerformed k.id)
      | none => s) s

/-- STORE BUFFER TIMEOUT (02 R56): an entry is sent 32 ticks after it was opened. -/
def sbTimeout (s : State) (core id : Nat) : State := sbSend s core id

/-- An entry whose page has moved is translated afresh, by the address of the store that opened it (05 R145, 01 R39), and sent
again; its lanes and its stamp fault where that fails. False while the translation is not at hand. -/
def sbRetranslate (core : Nat) (e : SbEntry) (s : State) : Bool × State :=
  let sup := (e.from_.head?.bind fun c => (s.anyThread? c.uid).bind fun t => t.log.find? fun x => x.id == c.entry).any LogEntry.sup
  match xlatNow s (dieOf core) e.slot (BitVec.ofNat 64 e.va) .write sup with
  | (.pending, s) => (false, s)
  | (.fault x, s) => (true, sbFail s core e x.code x.detail)
  | (.ok pa cen, s) =>
    let nc := inWindow (s.ctx e.slot) e.va
    let s := sbLanes s e fun m y => { y with moving := y.moving &&& ~~~m, flight := y.flight ||| m }
    let e' : SbEntry := { e with line := pa / 128, nc := nc, cen := cen, sent := false, again := false }
    (true, sbSend (s.modCore core fun k => { k with sb := k.sb.map fun x => if x.id == e.id then e' else x }) core e.id)
/-- What was handed to the replay buffer leaves a core's store buffer once it has been sent again, or never will be. -/
def sbPrune (s : State) : State :=
  if !(s.cores.any fun k => k.sb.any SbEntry.handed) then s
  else { s with cores := s.cores.map fun k => { k with sb := k.sb.filter fun e => e.seen s } }
/-- The entries of every core that are to be translated afresh, each core's in the order in which they were opened (03 R74). -/
def sbAgain (s : State) : State :=
  if !(s.cores.any fun k => k.sb.any SbEntry.again) then s
  else (List.range s.cores.length).foldl (fun s c =>
    (((s.core c).sb.filter SbEntry.again).foldl (fun (r : Bool × State) e =>
      if r.1 then sbRetranslate c e r.2 else r) (true, s)).2) s
/-- The stores and atomics that a page's move held go on (05 R145). -/
def sbRelease (s : State) (page : Nat) : State :=
  let free (e : SbEntry) : SbEntry := if e.onMove == some page then { e with onMove := none, again := true } else e
  { s with cores := s.cores.map fun k => { k with sb := k.sb.map free } }

/-! ### Releases (03 R77, R81) -/

/-- Accesses to another member's scratchpad. -/
def isScratch : MemOp → Bool
  | .spLoad _ | .spStore _ | .spAtom _ => true
  | _ => false

/-- Every earlier load, of global memory or of a scratchpad, is performed: what an acquire waits for (03 R77). -/
def Thread.loadsPerformed (t : Thread) : Bool :=
  t.liveLog.all fun e => match e.op with
    | .load _ _ | .spLoad _ => e.unperformed == 0
    | _ => true
/-- The lanes of an entry that a release waits for (03 R77). At CORE scope: loads that are not performed, stores and atomics that
are not in the store buffer, accesses to the own core's scratchpad. At PKG scope: stores and atomics that are not answered, other
members' scratchpads, and puts and flags that are not in the stream table (05 R149). At SPAN scope all. -/
def LogEntry.awaits (e : LogEntry) (sc : Scope) : LaneMask :=
  match sc, e.op with
  | .core, .load _ _ | .core, .spLoad _ => e.unperformed
  | .core, .store _ _ | .core, .atom _ _ | .core, .spStore _ | .core, .spAtom _ => e.unperformed &&& ~~~(e.flight ||| e.moving)
  | .core, _ => 0
  | .pkg, .rget | .pkg, .ratom _ => 0
  | .pkg, _ => e.unperformed
  | .span, _ => e.unperformed
/-- A release at CORE scope is complete. -/
def Thread.releasedCore (t : Thread) : Bool := t.liveLog.all fun e => e.awaits .core == 0
/-- At PKG scope: with NOW ≥ LCT. -/
def Thread.releasedPkg (t : Thread) (now : Nat) : Bool := t.lct ≤ now && t.liveLog.all fun e => e.awaits .pkg == 0
/-- A lane of an access to another member's scratchpad. -/
def toMember (s : State) (team : Nat) (e : LogEntry) (L : Nat) : Bool :=
  match scratchAddr s team (e.addrs.getD L 0) (memSize e.op) with
  | .ok (m, _) => m != team
  | .error _ => false
/-- What WAITC waits for (03 R79, 09 R236): global stores and atomics, and accesses to another member's scratchpad; no other load. -/
def Thread.releasedWaitc (t : Thread) (s : State) : Bool :=
  t.lct ≤ s.now && t.liveLog.all fun e => match e.op with
    | .store _ _ | .atom _ _ => e.unperformed == 0
    | .spLoad _ | .spStore _ | .spAtom _ => (lanesOf e.unperformed).all fun L => !toMember s t.team e L
    | _ => true
/-- The thread's store buffer entries are sent at once (03 R77). -/
def sendMine (s : State) : State :=
  sbSendAll s s.cur.core fun e => e.from_.any fun c => c.uid == s.cur.uid

/-- Requests of a thread that a SPAN release waits for: puts, flags, sends (03 R77). -/
def remoteOpen (s : State) (uid : Nat) : Bool :=
  (s.reqs.any fun r => !r.ended && match r.for_ with
    | .put u .. | .send u .. => u == uid
    | .sendw u .. => u == uid
    | _ => false)
  || s.ctxs.any fun c => c.arrivals.any fun a => match a.from_ with
    | .send u .. => u == uid
    | _ => false
/-- Write back the dirty untracked lines of a context entry (01 R32). -/
def flushUntracked (s : State) (slot : Nat) : State :=
  (s.l2.filter fun L => match L.unt with
    | some (k, dm) => k == slot && dm != 0
    | none => false).foldl (fun s L =>
      (sendUntracked s slot L ((L.unt.map Prod.snd).getD 0)).l2mod L.line (some slot) fun L => { L with unt := some (slot, 0) }) s
def untrackedOpen (s : State) (slot : Nat) : Bool :=
  s.reqs.any fun r => !r.ended && (match r.for_ with
    | .untracked k => k == slot
    | _ => false)
/-- A SPAN acquire discards the context's untracked lines once nothing of them is dirty (01 R32, 03 R77), and what was asked
for before: a load after the acquire asks anew. A line under lease goes when the lease ends, and is not read before. -/
def dropUntracked (s : State) (slot : Nat) : State :=
  let s := disown s fun r => r.copyOf == some (some slot)
  { s with
    l2 := s.l2.filter fun L => match L.unt with
      | some (k, dm) => !(k == slot && dm == 0)
      | none => true
    cores := s.cores.map fun k => { k with l1 := k.l1.filter fun l => l.unt != some slot } }

/-- Whether a release of the thread that is checked out is complete, with what it sends at once. -/
def release (sc : Scope) (s : State) : Bool × State :=
  let t := s.cur
  match sc with
  | .core => (t.releasedCore, s)
  | .pkg => let s := sendMine s; (t.releasedPkg s.now, s)
  | .span =>
    let s := sendMine s
    let slot := s.slotOf t
    if t.releasedPkg s.now then
      let s := flushUntracked s slot
      -- a handler waits for no put or send: those are made in user mode (03 R81)
      (!untrackedOpen s slot && (t.mode == .sup || !remoteOpen s t.uid) && t.liveLog.all (fun e => e.unperformed == 0), s)
    else (false, s)

/-! ### Fences (11 R279, R280) -/

/-- Clear PDENY in the device and in the block (05 R132, 15 R354): an atomic AND on the word at 0x50. -/
def clearPdeny (s : State) (slot : Nat) : State :=
  let s := s.modCtx slot fun c => { c with pdeny := none }
  let pa := (s.ctx slot).block + 0x50
  let (id, s) := s.fresh
  l2Arrive s ⟨id, pa / 128, slot, false, false, 0, 0, false, some ⟨.and, pa % 128, 8, ~~~(0x100000000 : Dword), 0, false⟩, s.now + 1,
    .none, 0, false, false, false⟩

/-- Take the first outcome that a test picks from the grids of a context entry and the context. -/
def takeOutcome (s : State) (slot : Nat) (kind : EndKind) : Option PendOutcome × State :=
  match s.grids.find? fun g => g.slot == slot && g.outcomes.any fun o => o.kind == kind with
  | some g => match g.outcomes.find? fun o => o.kind == kind with
    | some o => (some o, s.modGrid g.id fun g => { g with outcomes := g.outcomes.erase o })
    | none => (none, s)
  | none => match (s.ctx slot).outcomes.find? fun o => o.kind == kind with
    | some o => (some o, s.modCtx slot fun c => { c with outcomes := c.outcomes.erase o })
    | none => (none, s)

/-- The report of a FENCE.SPAN: one fault, the first that applies (11 R280); one whose endpoint's cell died comes last (05
R136, log 53). -/
def fenceReport (s : State) : Res :=
  let slot := s.slotOf s.cur
  match (s.ctx slot).pdeny with
  | some line => .trapNext (clearPdeny s slot) ⟨PARAPET_DENIED, 0, BitVec.ofNat 64 (line * 128)⟩
  | none => match takeOutcome s slot .refused with
    | (some o, s) => .trapNext s ⟨REMOTE_WINDOW, 0x10, o.addr⟩
    | (none, s) => match takeOutcome s slot .timedOut with
      | (some o, s) => .trapNext s ⟨REMOTE_TIMEOUT, 1, o.addr⟩
      | (none, s) => match takeOutcome s slot .lost with
        | (some o, s) => .trapNext s ⟨HOME_LOST, 0, o.addr⟩
        | (none, s) => .ok s

/-- A fence: its release, then its acquire; until then it waits (11 R279). -/
def fence (sc : Scope) (s : State) : Res :=
  match release sc s with
  | (false, s) => .wait s (.fence sc)
  | (true, s) => match sc with
    | .span => fenceReport (dropUntracked s (s.slotOf s.cur))
    | _ => .ok s

end Sys2Proof.Machine
end

