-- ==== Sys2Proof/Machine/Team.lean ====
section
/-! DEFINITION. Leaving a core: the end of a group or a stream (09 R227, R228, 06 R158), pins (09 R238), the exit of a team
(04 R113), the end of a cluster, and the freeing of a matrix engine (12 R295). -/
namespace Sys2Proof.Machine

/-- Copies of a team that are neither DONE nor ABORTED. -/
def copiesOpen (s : State) (team : Nat) : Bool := s.copies.any fun c => c.team == team && c.stage != .finished
/-- Whether a team still runs a group or a stream (log 22). -/
def teamRuns (s : State) (team : Nat) : Bool := s.threads.any fun t => t.team == team
/-- The live groups of a team. -/
def groupsOf (s : State) (team : Nat) : List Thread := s.allThreads.filter fun t => t.team == team && !t.stream
/-- The stream that a core's sequencer runs, or ran for a cluster that still takes up the core. -/
def streamOn (s : State) (core : Nat) : Option Thread :=
  (s.allThreads ++ s.leaving.flatMap SavedCluster.threads).find? fun t => t.stream && t.core == core

/-- The end of a pin (09 R238). -/
def unpin (s : State) (team : Nat) : State :=
  s.modTeam team fun m => if m.pinEnd.isSome then { m with pinEnd := none, lastPinEnd := some s.now } else m

/-- The holder's claim of its engine ends once its queue is empty (12 R295, 09 R227). -/
def releaseEngine (s : State) (core team : Nat) : State :=
  s.modCore core fun k => if k.engine.holder == some team && k.engine.queue.isEmpty then { k with engine := Engine.free } else k

/-- A cluster whose teams have all exited is gone; so is, perhaps, its grid (06 R170). -/
def clusterGone (s : State) (cluster : Nat) : State :=
  match s.cluster? cluster with
  | none => s
  | some c =>
    if s.teams.any fun m => m.cluster == cluster && !m.exited then s
    else
      let s : State := { s with
        clusters := s.clusters.filter fun x => x.id != cluster
        teams := s.teams.filter fun m => m.cluster != cluster }
      s.post s.now (.gridComplete c.grid)

/-- A team exits once no group and no stream of it runs and its copies are DONE or ABORTED (04 R113, log 22): its scratchpad
and its engine are free, and what waited on the room it held is tried again. -/
def teamExit (s : State) (team : Nat) : State :=
  match s.team? team with
  | none => s
  | some m =>
    if m.exited || teamRuns s team || copiesOpen s team then s
    else
      let s := s.modTeam team fun m => { m with exited := true, scratch := [], marks := List.replicate 16 Watermark.idle }
      let s := releaseEngine s m.core team
      -- copies that land in it go on without it (04 R111)
      let s := (s.copies.filter fun c => c.into.any fun p => p.1 == m.member && (s.team? c.team).map Team.cluster == some m.cluster).foldl
        (fun s c => s.post s.now (.copyUnitLand c.id)) s
      ((clusterGone s m.cluster).post s.now .dispatchRetry).wake

/-- A group or a stream leaves its core. -/
def leave (s : State) (uid : Nat) : State :=
  match s.thread? uid with
  | none => s
  | some t =>
    let slot := s.slotOf t
    let s := s.modCtx slot fun c =>
      if c.ui.hg == some uid && !t.stream then { c with ui := { c.ui with hg := none, inh := false } } else c
    -- a grid that is ended waits for what its groups have sent (06 R171)
    let grid := ((s.gridOf t).map Grid.id).getD 0
    let s := if t.ending then s.modGrid grid fun g => { g with left := uid :: g.left } else s
    let mine := s.out && s.cur.uid == uid
    let s : State := { s with
      threads := s.threads.filter fun x => x.uid != uid
      cur := if mine then Thread.blank else s.cur
      out := s.out && !mine }
    let s := leaveQueues s slot t.core uid
    let s :=
      if t.stream then s.post s.now (.sequencerGrant t.core)
      else if (groupsOf s t.team).isEmpty then unpin s t.team else s
    teamExit s.wake t.team

/-- EXIT (09 R227): it waits for an empty operand log. -/
def exitThread (s : State) : Res :=
  if s.cur.liveLog.any fun e => e.unperformed != 0 then .stall s else .done (leave s s.cur.uid)

/-- The member team of a thread's cluster, by index; 31 is its own (01 R13). -/
def memberTeam (s : State) (team k : Nat) : Option Nat :=
  if k == 31 then some team else ((s.clusterOf team).bind fun c => c.members[k]?).map Prod.snd

end Sys2Proof.Machine
end

