-- ==== Sys2Proof/Machine/Uiops.lean ====
section
/-! DEFINITION. User interrupts (13): the toll table, recording an arrival, sends and their answers, entry to the handler. -/
namespace Sys2Proof.Machine

/-! ### The toll table (13 R311, R312) -/

/-- Whether an entry admits a sender for what a test asks of its words. -/
def tollHas (cls ident : Nat) (what : Dword × Dword → Bool) (w : Dword × Dword) : Bool :=
  let k := bits w.1 1 2
  let clean := !bit w.1 63 && bits w.1 4 3 == 0 && (match k with
    | 0 | 1 => bits w.1 18 45 == 0
    | 2 => bits w.1 28 35 == 0
    | _ => true)
  bit w.1 0 && clean && k == cls && bits w.1 8 55 == (if bit w.1 3 then 0 else ident) && what w

/-- The table's entries from i on, through the cache of 16, read span-coherently (13 R312); none while a read is pending. One that
cannot be read matches nothing (15 R407). -/
def tollScan (slot : Nat) (ok : Dword × Dword → Bool) : Nat → Nat → State → Option Bool × State
  | 0, _, s => (some false, s)
  | f + 1, i, s =>
    match (s.ctx slot).toll.find? fun e => e.1 == i with
    | some e => if ok e.2 then (some true, s) else tollScan slot ok f (i + 1) s
    | none => match devReadFrom true 0 slot true 2 ((s.ctx slot).tollbase + BitVec.ofNat 64 (16 * i)).toNat 16 s with
      | (.pending, s) => (none, s)
      | (.fault _, s) => tollScan slot ok f (i + 1) s
      | (.ok v psn, s) =>
        let w : Dword × Dword := if psn then (0, 0) else (BitVec.ofNat 64 v, BitVec.ofNat 64 (v / 2 ^ 64))
        if ok w then (some true, s.modCtx slot fun c => { c with toll := (i, w) :: c.toll.take 15 })
        else tollScan slot ok f (i + 1) s
/-- Whether the table admits a vector from a sender. -/
def tollVector (s : State) (slot cls ident vec : Nat) : Option Bool × State :=
  tollScan slot (tollHas cls ident fun w => bit w.2 vec) 256 0 s
/-- Whether the table admits launch port stores of an endpoint. -/
def tollPort (s : State) (slot ep : Nat) : Option Bool × State :=
  tollScan slot (tollHas (if isHost s ep then 0 else 1) ep fun w => bit w.1 7) 256 0 s

/-! ### The context block in memory (15 R354) -/

/-- A write to the block that has still to be performed. -/
def blockBusy (s : State) (slot : Nat) : Bool :=
  let b := (s.ctx slot).block / 128
  s.l2w.any fun w => b ≤ w.line && w.line < b + 32
/-- n bytes of the block at an offset, within a line; none while the read is pending; a line that is lost reads zero. -/
def blockRead (s : State) (slot off n : Nat) : Option Nat × State :=
  if blockBusy s slot then (none, s)
  else match physRead s slot ((s.ctx slot).block + off) n false false with
    | (.pending, s) => (none, s)
    | (.lost, s) => (some 0, s)
    | (.data d _, s) => (some d.toNat, s)
/-- Change some fields of the block, each of n bytes within a line, at one instant (13 R315): all of them, or none while one
of their lines cannot be written yet. -/
def blockUpdate (s : State) (slot : Nat) (fs : List (Nat × Nat × Nat)) : Option State × State :=
  go fs s
where
  go : List (Nat × Nat × Nat) → State → Option State × State
    | [], r => (some r, r)
    | (off, n, v) :: rest, r =>
      let pa := (s.ctx slot).block + off
      match physTry r slot pa n v false false none with
      | (.done _, r) => go rest r
      | (.lost, r) => go rest r
      | _ => (none, (physTry s slot pa n v false false none).2)
/-- Write n bytes of the block, or perform an atomic there. -/
def blockWrite (s : State) (slot off n v : Nat) (atom : Option AtomOp) : State :=
  let pa := (s.ctx slot).block + off
  let (id, s) := s.fresh
  let a := atom.map fun op => (⟨op, pa % 128, n, BitVec.ofNat 64 v, 0, false⟩ : AtomReq)
  l2Arrive s ⟨id, pa / 128, slot, false, false, lineAt (pa % 128) n v, maskAt (pa % 128) n, false, a, s.now + 1, .none,
    0, false, false, false⟩

/-! ### Recording (13 R314, R315) -/

/-- Combine data by RULE: 0 KEEP_FIRST, 1 KEEP_LAST, 2 OR, 3 ADD. -/
def uiCombine (rule : Nat) (first : Bool) (old x : Word) : Word :=
  match rule with
  | 0 => if first then x else old
  | 1 => x
  | 2 => old ||| x
  | _ => old + x
def sat16 (n : Nat) : BitVec 16 := BitVec.ofNat 16 (min n 0xFFFF)
/-- Record an arrival in the registers. -/
def UiRegs.record (u : UiRegs) (n : Nat) (x : Word) (wide : Bool) : UiRegs :=
  let c := u.cnt.getD n 0
  { u with
    data := modAt u.data n fun o => uiCombine (bits (u.rule.getD n 0) 0 2) (c == 0) o x
    cnt := setAt u.cnt n (sat16 (c.toNat + 1))
    pend := putBit u.pend n true
    wide := if wide then putBit u.wide n true else u.wide }

inductive ArrAns where
  | recorded | refused | pending
deriving DecidableEq, Repr

/-- Add one to DROPS in the block of a parked context; none while that cannot be done yet. -/
def blockDrop (s : State) (slot : Nat) : Option State × State :=
  match blockRead s slot 0x140 2 with
  | (none, s) => (none, s)
  | (some n, s) => blockUpdate s slot [(0x140, 2, min (n + 1) 0xFFFF)]

/-- An arrival at a parked context: the registers in its block, changed at one instant (13 R315); the package keeps which
vectors ask for an acquire at SPAN scope (13 R318). A wake request sets EVSTAT (21 R400). -/
def parkedArrival (s : State) (slot n : Nat) (x : Word) (wide admitted : Bool) : ArrAns × State :=
  match blockRead s slot (0x300 + n) 1 with
  | (none, s) => (.pending, s)
  | (some rule, s) => match blockRead s slot (0x180 + 2 * n) 2 with
    | (none, s) => (.pending, s)
    | (some cnt, s) => match blockRead s slot (0x200 + 4 * n) 4 with
      | (none, s) => (.pending, s)
      | (some data, s) => match blockRead s slot 0x100 8 with
        | (none, s) => (.pending, s)
        | (some pend, s) =>
          if !admitted || rule / 128 % 2 == 0 then
            match blockDrop s slot with
            | (some s, _) => (.refused, s)
            | (none, s) => (.pending, s)
          else match blockUpdate s slot [(0x200 + 4 * n, 4, (uiCombine (rule % 4) (cnt == 0) (BitVec.ofNat 32 data) x).toNat),
              (0x180 + 2 * n, 2, min (cnt + 1) 0xFFFF), (0x100, 8, pend ||| 2 ^ n)] with
            | (none, s) => (.pending, s)
            | (some s, _) =>
              let s := if wide then s.modCtx slot fun c => { c with ui := { c.ui with wide := putBit c.ui.wide n true } } else s
              (.recorded, if rule / 4 % 2 == 1 then hostEvent (s.modCtx slot fun c => { c with wake := true }) slot 0 0 else s)

/-- An arrival of a vector from a sender of a class and identity at a package context entry (13 R310 to R315). -/
def arrive (s : State) (slot cls ident vec : Nat) (x : Word) (wide : Bool) : ArrAns × State :=
  let c := s.ctx slot
  if ctxBusy s slot then (.pending, s)
  else if c.status == .unknown then (.refused, s)
  else match tollVector s slot cls ident vec with
    | (none, s) => (.pending, s)
    | (some ok, s) =>
      if c.status == .parked then parkedArrival s slot vec x wide ok
      else if ok && bit (c.ui.rule.getD vec 0) 7 then
        (.recorded, lookSaved (s.modCtx slot fun c => { c with ui := c.ui.record vec x wide }).wake slot)
      else (.refused, s.modCtx slot fun c => { c with ui := { c.ui with drops := sat16 (c.ui.drops.toNat + 1) } })
/-- One refusal counted in DROPS (13 R312); false while the block of a parked context cannot be changed, and nothing is
counted yet. -/
def countDrop (s : State) (slot : Nat) : Bool × State :=
  match (s.ctx slot).status with
  | .loaded => (true, s.modCtx slot fun c => { c with ui := { c.ui with drops := sat16 (c.ui.drops.toNat + 1) } })
  | .parked => if ctxBusy s slot then (false, s) else match blockDrop s slot with
    | (some s, _) => (true, s)
    | (none, s) => (false, s)
  | .unknown => (true, s)

/-- A posted send of the context was refused: UIDENY.DEN (13 R308). -/
def setDen (s : State) (slot : Nat) : State :=
  match (s.ctx slot).status with
  | .loaded => s.modCtx slot fun c => { c with ui := { c.ui with den := true } }
  | .parked =>
    if (s.ctx slot).parking then s.modCtx slot fun c => { c with ui := { c.ui with den := true } }
    else blockWrite s slot 0x140 8 0x10000 (some .or)
  | .unknown => s
/-- The identity of a kernel of a context: KENTRY[56:2] (13 R311). -/
def kernelIdent (s : State) (grid : Nat) : Nat := (((s.grid? grid).map fun g => g.r.kentry.toNat).getD 0) / 4 % 2 ^ 55
/-- The request of a UISENDW was refused: it finds that when it looks. -/
def refuseReq (s : State) (id : Nat) : State :=
  { s with reqs := s.reqs.map fun q => if q.id == id then { q with held := true, ended := true } else q }
/-- The answer to a send, which may be one of this package's own (13 R320, 21 R401). -/
def answerSend (s : State) (src : StreamId) (ep id : Nat) (ok : Bool) : State :=
  if src.span == spanId s && ep == s.self then s.post s.now (.uiSendAnswer id ok) else s.say (.sendAns src ep id ok)
/-- The first LOAD of an entry is in progress, and has still to read its context's number (21 R401). -/
def firstLoad (s : State) : Bool := bit s.ctxcmd 62 && (s.ctx (bits s.ctxcmd 0 8)).status == .unknown
/-- Who presented an arrival hears whether it was recorded (13 R313, R320). -/
def uiOutcome (s : State) (from_ : UiFrom) (ok : Bool) : State :=
  match from_ with
  | .port | .bad => s
  | .kernel slot _ => if ok then s else setDen s slot
  -- a package that has isolated itself answers no other cell, and none answers a DEAD one (05 R138, R139)
  | .msg src ep id =>
    if id == 0 || beyondCell s src.span ep || (src.span == spanId s && ep != s.self && shunned s ep) then s
    else answerSend s src ep id ok
  | .send _ _ slot none => if ok then s else setDen s slot
  | .send _ _ _ (some id) => (if ok then { s with reqs := s.reqs.filter fun r => r.id != id } else refuseReq s id).wake
/-- The arrivals that wait at a context entry are judged in the order in which they came, as far as that is possible now
(13 R314). -/
def uiSettle (slot : Nat) : Nat → State → State
  | 0, s => s
  | n + 1, s => match (s.ctx slot).arrivals with
    | [] => s
    | a :: _ => if ctxBusy s slot then s else match (if a.from_ == .bad then (match countDrop s slot with
        | (true, s) => (.refused, s)
        | (false, s) => (.pending, s)) else arrive s slot a.cls a.ident a.vec a.data a.wide) with
      | (.pending, s) => s
      | (r, s) =>
        uiSettle slot n (uiOutcome (s.modCtx slot fun c => { c with arrivals := c.arrivals.drop 1 }) a.from_ (r == .recorded))
/-- An arrival reaches the package: it is judged after those that came before it. -/
def uiPresent (s : State) (slot : Nat) (a : UiArr) : State :=
  let s := s.modCtx slot fun c => { c with arrivals := c.arrivals ++ [a] }
  uiSettle slot (s.ctx slot).arrivals.length s
/-- What waits at every context entry is looked at again. -/
def uiSettleAll (s : State) : State :=
  (List.range s.ctxs.length).foldl (fun s k =>
    if (s.ctx k).arrivals.isEmpty then s else uiSettle k (s.ctx k).arrivals.length s) s
/-- A send from the device as a kernel of the context, for a grid: copies and completions (13 R313). -/
def kernelSend (s : State) (slot grid ident vec : Nat) (x : Word) : State :=
  uiPresent s slot ⟨3, ident, vec, x, false, .kernel slot grid⟩

/-- The entry of a context number known at this package. -/
def slotOfCtx (s : State) (num : Nat) : Option Nat :=
  (List.range 64).find? fun i => (s.ctx i).status != .unknown && (s.ctx i).num == num

/-! ### Answers to sends (13 R320) -/

/-- The answer to a send: a refused UISEND sets DEN; a UISENDW finds its request gone, or marked refused. DESIGN CHOICE: the answer to a
saved group is seen at the next look at its cluster (log 99). -/
def sendAnswer (s : State) (id : Nat) (recorded : Bool) : State :=
  match s.reqs.find? fun r => r.id == id && !r.ended with
  | none => s
  | some r => match r.for_ with
    | .send _ _ slot _ dst =>
      let s := sendSettle (dropReq s id) slot id dst
      if recorded then s else setDen s slot
    | .sendw _ slot _ dst =>
      let s := sendSettle (if recorded then dropReq s id else refuseReq s id) slot id dst
      s.wake
    | _ => s

/-! ### Entry to the handler (13 R316 to R318) -/

/-- A vector is deliverable to this group. -/
def deliverable (s : State) (t : Thread) : Bool :=
  let u := (s.ctxOf t).ui
  !t.stream && t.mode == .user && u.hg == some t.uid && !u.inh && u.pend &&& u.mask != 0
/-- The states of the group in which the handler can be entered (13 R317): no trap is pending, one that external service has
still to dispose of among them (log 23). -/
def mayEnter (t : Thread) : Bool :=
  (match t.wait with
    | .bara .. | .sendw _ | .replay => false
    | _ => true) && t.log.all fun e => e.faults.isEmpty && !e.held
/-- Enter the handler as the thread that is checked out (13 R316): its earlier memory instructions stay in the log; the
acquire that the sends ask for, and one of a WAIT that is still open, come before the handler's first instruction. -/
def enterHandler (s : State) : State :=
  let t := s.cur
  let slot := s.slotOf t
  let u := (s.ctx slot).ui
  let wide := u.pend &&& u.mask &&& u.wide != 0
  let s := s.modCtx slot fun c => { c with ui := { c.ui with
    pc := t.pc, savm := [maskWord t.mask 0, maskWord t.mask 1, maskWord t.mask 2], inh := true } }
  let s := leaveQueues s slot t.core t.uid
  s.modCur fun t => { t with wait := .none, stall := false, fetched := none, acq := some (wide || t.acq == some true), pc := u.vec }.setMask t.live
/-- The acquire of a thread that has entered its handler: it completes when every earlier load is performed; at SPAN scope the
context's untracked lines go, their dirty bytes written back first (01 R32, 03 R77). -/
def acquireStep (s : State) : State :=
  match s.cur.acq with
  | none => s
  | some wide =>
    let slot := s.slotOf s.cur
    let wait (s : State) : State := s.modCur fun t => { t with stall := true }
    let done (s : State) : State := s.modCur fun t => { t with acq := none }
    if !s.cur.loadsPerformed then wait s
    else if !wide then done s
    else
      let s := flushUntracked s slot
      if untrackedOpen s slot then wait s else done (dropUntracked s slot)

end Sys2Proof.Machine
end

