-- ==== Sys2Proof/Machine/Copyops.lean ====
section
/-! DEFINITION. Sync words (04 R114 to R117), layout records (04 R91 to R94, R97, R99), and how a copy reads its source,
converts it and lands it (04 R101 to R120). -/
namespace Sys2Proof.Machine

/-! ### Sync words -/

def syncExpect (w : Nat) : Nat := w / 2 ^ 40 % 2 ^ 23
def syncCount (w : Nat) : Nat := w / 2 ^ 17 % 2 ^ 23
def syncGen (w : Nat) : Nat := w / 2 % 2 ^ 16
def syncMode (w : Nat) : Nat := w / 2 ^ 63 % 2
def syncWord (mode expect count gen ovr : Nat) : Nat :=
  mode % 2 * 2 ^ 63 + expect % 2 ^ 23 * 2 ^ 40 + count % 2 ^ 23 * 2 ^ 17 + gen % 2 ^ 16 * 2 + ovr % 2
/-- Valid for byte counting (04 R115). -/
def syncBytesOk (w : Nat) : Bool := syncMode w == 0 && 1 ≤ syncExpect w && syncCount w < syncExpect w
/-- Valid for party counting (04 R115). -/
def syncPartyOk (w : Nat) : Bool :=
  syncMode w == 1 && (syncCount w < syncExpect w || (syncCount w == 0 && syncExpect w == 0))
/-- A byte arrival (04 R115, R116). -/
def syncBytes (w n : Nat) : Nat :=
  if !syncBytesOk w then w / 2 * 2 + 1
  else
    let e := syncExpect w
    let c := syncCount w + n
    syncWord 0 e (c % e) (syncGen w + c / e) (if e < c then 1 else w % 2)
/-- A party arrival (04 R117): the word after it, and whether it overran. -/
def syncParty (w : Nat) (bard : Bool) : Nat × Bool :=
  let e := syncExpect w
  let c := syncCount w
  let ovr := w / 2 * 2 + 1
  if bard then
    if e == 0 then (ovr, true)
    else if c == e - 1 then (syncWord 1 (e - 1) 0 (syncGen w + 1) w, false) else (syncWord 1 (e - 1) c (syncGen w) w, false)
  else if e < c + 1 then (ovr, true)
  else if c + 1 == e then (syncWord 1 e 0 (syncGen w + 1) w, false)
  else (syncWord 1 e (c + 1) (syncGen w) w, false)

/-! ### Layout records -/

/-- The unit of a format and its poison (04 R92): whether it is a block, code bytes or unit, the floating-point format. -/
structure FmtInfo where
  block : Bool
  size : Nat
  fp : Option Fmt
deriving DecidableEq, Repr

def fmtInfo (f : Nat) : Option FmtInfo :=
  match f with
  | 0x00 => some ⟨false, 1, none⟩
  | 0x01 => some ⟨false, 2, none⟩
  | 0x02 => some ⟨false, 4, none⟩
  | 0x03 => some ⟨false, 8, none⟩
  | 0x04 => some ⟨false, 16, none⟩
  | 0x05 => some ⟨false, 8, some f64⟩
  | 0x06 => some ⟨false, 4, some f32⟩
  | 0x07 => some ⟨false, 2, some f16⟩
  | 0x08 => some ⟨false, 2, some bf16⟩
  | 0x09 => some ⟨false, 1, some e4m3⟩
  | 0x0A => some ⟨false, 1, some e5m2⟩
  | 0x0B => some ⟨false, 1, none⟩
  | 0x0C => some ⟨false, 4, none⟩
  | 0x0D => some ⟨false, 8, none⟩
  | 0x10 | 0x11 => some ⟨true, 32, none⟩
  | 0x12 => some ⟨true, 24, none⟩
  | 0x13 => some ⟨true, 16, none⟩
  | _ => none
def Layout.info (l : Layout) : FmtInfo := (fmtInfo l.fmt).getD ⟨false, 1, none⟩
/-- Bytes of a whole unit: a block with its scale byte. -/
def Layout.whole (l : Layout) : Nat := if l.info.block then l.info.size + 1 else l.info.size
/-- The landing unit (04 R92): in SPACE 2 a block counts its code bytes only. -/
def Layout.unit (l : Layout) : Nat := if l.space == 2 then l.info.size else l.whole

/-- A record of 64 bytes, if it is valid (04 R91, R93). -/
def parseLayout (v : Nat) : Option Layout :=
  let w (i : Nat) : Nat := v / 2 ^ (64 * i) % 2 ^ 64
  let f (i lo len : Nat) : Nat := w i / 2 ^ lo % 2 ^ len
  let st := v / 2 ^ 256
  let l : Layout := ⟨f 0 0 57, f 1 0 2, f 1 8 5, f 1 2 3, f 1 19 5, f 1 16 3,
    [f 2 0 32, f 2 32 32, f 3 0 32, f 3 32 32, f 1 32 32], (List.range 5).map fun i => st / 2 ^ (40 * i) % 2 ^ 40⟩
  let reserved := f 0 57 7 != 0 || f 1 24 8 != 0 || f 1 13 3 != 0 || f 1 5 3 != 0 || f 7 8 56 != 0
  let base := match l.space with
    | 0 => true
    | 1 => l.base < 2 ^ 24
    | _ => l.base < 2 ^ 15
  let dims := (List.range 5).all fun i =>
    if i < l.ndim then 1 ≤ l.extent.getD i 0 && 1 ≤ l.stride.getD i 0 else l.extent.getD i 0 == 0 && l.stride.getD i 0 == 0
  let aligned := l.info.block || (l.base % l.info.size == 0 && l.stride.all fun s => s % l.info.size == 0)
  if reserved || !base || 3 ≤ l.space || (fmtInfo l.fmt).isNone || l.ndim == 0 || 6 ≤ l.ndim || !dims
      || (l.swz != 0 && l.space != 1) || (l.tb != 0 && l.space != 2) || !aligned then none
  else some l

/-- The first byte of the layout's space that BASE names. -/
def Layout.start (l : Layout) : Nat :=
  match l.space with
  | 1 => l.base % 2 ^ 19
  | _ => l.base
/-- The member that a SPACE 1 record names. -/
def Layout.member (l : Layout) : Nat := l.base / 2 ^ 19 % 32
/-- The address of an element (04 R94). -/
def Layout.at_ (l : Layout) (org c : List Nat) : Nat :=
  (List.range l.ndim).foldl (fun a i => a + (org.getD i 0 + c.getD i 0) * l.stride.getD i 0) l.start
/-- The coordinates of the last element. -/
def Layout.lastCoord (l : Layout) : List Nat := l.extent.map fun e => e - 1
/-- First byte and one past the last (04 R100). -/
def Layout.range (l : Layout) (org : List Nat) : Nat × Nat := (l.at_ org [], l.at_ org l.lastCoord + l.unit)

/-- The dimensions that matter, outermost first: decreasing stride, extent 1 left out (04 R99). -/
def Layout.order (l : Layout) : List Nat :=
  ((List.range l.ndim).filter fun i => l.extent.getD i 0 != 1).foldl (fun acc i => insert i acc) []
where
  insert (i : Nat) : List Nat → List Nat
    | [] => [i]
    | j :: r => if l.stride.getD j 0 < l.stride.getD i 0 then i :: j :: r else j :: insert i r
/-- The check of 04 R99: each stride is at least the span of the dimension inner to it, and no two are equal. DESIGN CHOICE:
the innermost stride must be at least the unit, of a block format too, so that no two elements share a byte (log 67). -/
def Layout.ascending (l : Layout) : Bool :=
  (l.order.reverse.foldl (fun (acc : Bool × Nat × Nat) i =>
    let st := l.stride.getD i 0
    (acc.1 && acc.2.1 ≤ st && acc.2.2 != st, (l.extent.getD i 0 - 1) * st + acc.2.1, st)) (true, l.unit, 0)).1
/-- Number of elements, and the coordinates of the n-th in landing order. -/
def Layout.count (l : Layout) : Nat := (List.range l.ndim).foldl (fun a i => a * l.extent.getD i 1) 1
def Layout.coords (l : Layout) (n : Nat) : List Nat :=
  (l.order.reverse.foldl (fun (acc : Nat × List Nat) i =>
    (acc.1 / max 1 (l.extent.getD i 1), setAt acc.2 i (acc.1 % max 1 (l.extent.getD i 1)))) (n, [0, 0, 0, 0, 0])).2
def Layout.elem (l : Layout) (org : List Nat) (n : Nat) : Nat := l.at_ org (l.coords n)

/-- The offsets modulo 256 that the elements of a tile-buffer layout take. -/
def Layout.rows (l : Layout) (org : List Nat) : List Nat :=
  (List.range l.ndim).foldl (fun rs i =>
    ((List.range (min 256 (l.extent.getD i 1))).foldl (fun acc c =>
      rs.foldl (fun acc r =>
        let x := (r + c * l.stride.getD i 0) % 256
        if acc.contains x then acc else x :: acc) acc) [])) [l.at_ org [] % 256]
/-- The bound of a record's space, for every element of the box (04 R94, R102). -/
def Layout.bounded (l : Layout) (org : List Nat) (scrb : Nat) : Bool :=
  let last := l.at_ org l.lastCoord
  match l.space with
  | 0 => last + l.whole ≤ 2 ^ 57
  | 1 => last + l.whole ≤ scrb
  | _ =>
    if l.info.block then
      last + l.info.size ≤ 0x4000 && (l.rows org).all fun r => r % l.info.size == 0 && r + l.info.size ≤ 256
    else last + l.info.size ≤ 0x4400
/-- Where the scale byte of a block at a code offset stands (04 R102). -/
def scaleSlot (o codes : Nat) : Nat := 0x4000 + o / 256 * 16 + o % 256 / codes
/-- The conversion target of CVFMT: its record format. -/
def cvTarget (cvfmt : Nat) : Nat :=
  match cvfmt with
  | 0 => 0x08
  | 1 => 0x07
  | 2 => 0x09
  | 3 => 0x0A
  | 4 => 0x06
  | _ => 0x12
/-- Whether two records pair (04 R97). -/
def layoutsPair (ctl : Dword) (a b : Layout) : Bool :=
  if !bit ctl 25 then
    a.ndim == b.ndim && a.extent == b.extent &&
      (if a.info.block || b.info.block then a.fmt == b.fmt else a.info.size == b.info.size)
  else
    let cv := bits ctl 29 3
    5 ≤ a.fmt && a.fmt ≤ 8 && b.fmt == cvTarget cv && a.ndim == b.ndim &&
      (if cv == 5 then a.extent.getD 0 0 == 32 * b.extent.getD 0 0 && a.extent.drop 1 == b.extent.drop 1
       else a.extent == b.extent)
/-- The swizzle of 02 R52. -/
def swizzle (swz o : Nat) : Nat := o ^^^ ((o / 128 % 32 &&& swz) * 4)

/-! ### A copy's landing units -/

/-- A swizzled copy lands whole 128-byte blocks (02 R52). -/
def Copy.swz (c : Copy) : Bool := c.dst.space == 1 && c.dst.swz != 0
/-- The destination range: LO and HI (04 R100, 02 R52). -/
def copyRange (dst : Layout) (org : List Nat) : Nat × Nat :=
  let r := dst.range org
  if dst.space == 1 && dst.swz != 0 then (r.1 / 128 * 128, (r.2 + 127) / 128 * 128) else r
def Copy.lo (c : Copy) : Nat := (copyRange c.dst c.dstO).1
def Copy.hi (c : Copy) : Nat := (copyRange c.dst c.dstO).2
/-- The number of landing units. -/
def Copy.units (c : Copy) : Nat := if c.swz then (c.hi - c.lo) / 128 else c.dst.count
/-- MARK when n units have landed. -/
def Copy.markAt (c : Copy) (n : Nat) : Nat :=
  if c.units ≤ n then c.hi else if c.swz then c.lo + 128 * n else c.dst.elem c.dstO n
def Copy.w (c : Copy) : Nat := bits c.ctl 20 4

/-! ### Reading the source -/

inductive SrcAns where
  | ok (v : Nat) (psn : Bool)
  | pending
  /-- a translation or an access that takes a fault: its code -/
  | fault (t : Trap)
deriving DecidableEq, Repr

/-- The place that an access of a core takes a line from, in a non-coherent window or not, with CEN. -/
inductive PlaceAns where
  | ok (pa : Nat) (nc cen : Bool)
  | fault (t : Trap)
  | pending
deriving DecidableEq, Repr
def placeOf (s : State) (slot va : Nat) : TAns × State → PlaceAns × State
  | (.ok pa cen, r) => (.ok pa (inWindow (s.ctx slot) va) cen, r)
  | (.fault t, r) => (.fault t, r)
  | (.pending, r) => (.pending, r)
/-- Translate for a read of a core: a copy's read that is under way keeps its translation (01 R38, R40). -/
def readPlace (s : State) (copy : Option Nat) (core slot : Nat) (sup : Bool) (va : Nat) : PlaceAns × State :=
  match copy with
  | none => placeOf s slot va (xlatNow s (dieOf core) slot (BitVec.ofNat 64 va) .read sup)
  | some id => match (s.copy? id).bind fun c => c.reading.find? fun r => r.1 == va / 128 with
    | some r => (.ok (r.2.1 + va % 128) r.2.2.1 r.2.2.2, s)
    | none => placeOf s slot va (xlatCopy s core slot (BitVec.ofNat 64 va) .read)
/-- A copy's read of a line is under way, or is not any more. -/
def noteRead (s : State) (copy : Option Nat) (va : Nat) (r : Option (Nat × Bool × Bool)) : State :=
  match copy with
  | none => s
  | some id => s.modCopy id fun c =>
    let rest := c.reading.filter fun r => r.1 != va / 128
    { c with reading := match r with
      | some (pa, nc, cen) => (va / 128, pa / 128 * 128, nc, cen) :: rest
      | none => rest }

/-- Read global bytes as loads of a core: through translation, with the store buffer's bytes (03 R70, R84). -/
def coreReadFrom (copy : Option Nat) (core slot : Nat) (sup : Bool) : Nat → Nat → Nat → State → SrcAns × State
  | 0, _, _, s => (.ok 0 false, s)
  | fuel + 1, va, n, s =>
    if n == 0 then (.ok 0 false, s)
    else
      let k := min n (128 - va % 128)
      let at_ : Dword := BitVec.ofNat 64 va
      match readPlace s copy core slot sup va with
      | (.pending, s) => (.pending, s)
      | (.fault t, s) => (.fault t, s)
      | (.ok pa nc cen, s) =>
        if sbWaits s core (pa / 128) then (.pending, s)
        else match takeExpired s (pa / 128) false with
        | (some code, s) => (.fault ⟨code, 0, at_⟩, noteRead s copy va none)
        | (none, s) =>
          let reg := isRegLine s (pa / 128)
          match (match (if reg then physRead s slot pa k nc cen else physRead s slot (pa / 128 * 128) 128 nc cen) with
            | (.data d psn, s) => (L2Ans.data (if reg then lineAt (pa % 128) k d.toNat else d) psn, s)
            | r => r) with
          | (.lost, s) => (.fault ⟨HOME_LOST, 0, at_⟩, noteRead s copy va none)
          | (.pending, s) => (.pending, if copy.isSome then noteRead s copy va (some (pa, nc, cen)) else noteDevRead s slot va (pa / 128))
          | (.data d psn, s) =>
            let s := noteRead s copy va none
            let want := maskAt (pa % 128) k
            let (b, m, flag) := if reg then (0, 0, false) else sbBytes s core (pa / 128) slot nc want
            let v := lineGet (lineMerge d b m) (pa % 128) k
            let p := flag || (psn && want &&& ~~~m != 0)
            match coreReadFrom copy core slot sup fuel (va + k) (n - k) s with
            | (.ok w q, s) => (.ok (v + w * 256 ^ k) (p || q), s)
            | r => r
def coreRead (s : State) (core slot : Nat) (sup : Bool) (va n : Nat) : SrcAns × State :=
  coreReadFrom none core slot sup (n / 128 + 2) va n s

/-- Read one unit of a layout for a copy: behind the issuing team's watermarks, from the space that it names (03 R84). -/
def readUnit (s : State) (c : Copy) (l : Layout) (a : Nat) : SrcAns × State :=
  let marks := s.marksOf c.team
  let held (space n : Nat) : Held := heldBy marks space l.tb a n
  let guard (h : Held) (k : SrcAns × State) : SrcAns × State :=
    match h with
    | .wait => (.pending, s)
    | .aborted b => (.fault ⟨COPY_ABORTED, 0, BitVec.ofNat 64 b⟩, s)
    | .free => k
  match l.space with
  | 0 => guard (held 0 l.whole) (coreReadFrom (some c.id) c.core c.slot false (l.whole / 128 + 2) a l.whole s)
  | 1 =>
    let team := (memberTeam s c.team l.member).getD c.team
    let m := if ((s.team? team).map Team.exited).getD true then [] else ((s.team? team).map Team.scratch).getD []
    let k : SrcAns × State := (.ok (Mem.load m a l.whole) false, s)
    if team == c.team then guard (held 1 l.whole) k else k
  | _ =>
    let m := (s.core c.core).engine.tiles
    let t := l.tb * 0x4400
    let codes := Mem.load m (t + a) l.info.size
    let v := if l.info.block then codes + (Mem.get m (t + scaleSlot a l.info.size)).toNat * 256 ^ l.info.size else codes
    let slots := if l.info.block then heldBy marks 2 l.tb (scaleSlot a l.info.size) 1 else .free
    guard (match held 2 l.info.size with
      | .free => slots
      | h => h) (.ok v false, s)

/-! ### Converting (04 R118 to R120) -/

/-- The exponent of 04 R119: the smallest in 0 to 62 with amax ≤ 28 × 2^(e − 32). -/
def blockScale (amax : FVal) : Nat :=
  if amax.isZero then 0
  else ((List.range 63).find? fun e => !(FVal.lt (.fin false 28 (Int.ofNat e - 32)) amax)).getD 62
/-- The magnitude of a value. -/
def FVal.abs : FVal → FVal
  | .fin _ m e => .fin false m e
  | .inf _ => .inf false
  | .nan => .nan
/-- A destination block of 32 elements (04 R119): its 24 code bytes and scale byte, and its events. -/
def makeBlock (xs : List FIn) : Nat × Ev :=
  if xs.any fun x => x.p || x.v.isNan then (0x3F * 256 ^ 24, Ev.none)
  else
    let amax := xs.foldl (fun m x => if FVal.lt m (FVal.abs x.v) then FVal.abs x.v else m) (FVal.fin false 0 0)
    let e := blockScale amax
    let rs := xs.map fun x => e3m2.op RNE [x] (x.v.scale (32 - Int.ofNat e))
    let codes := (mapFrom (fun i (r : Nat × Bool × Ev) => r.1 * 2 ^ (6 * i)) 0 rs).foldl (fun a x => a + x) 0
    let ev := rs.foldl (fun (a : Ev) r => a.add r.2.2) Ev.none
    (codes + e * 256 ^ 24, ⟨0, 0, min 1 ev.ovf, min 1 ev.unf⟩)

/-- What lands for one unit: its bytes, the poison of the lines it touches, its events; or the CAUSE of an abort. -/
inductive UnitAns where
  | ok (v : Nat) (psn : Bool) (ev : Ev)
  | pending
  | fault (t : Trap)
  | abort
deriving DecidableEq, Repr

/-- A unit of a raw copy (04 R120). -/
def rawUnit (dst : Layout) (v : Nat) (psn : Bool) : UnitAns :=
  if !psn then .ok v false Ev.none
  else if dst.space == 0 then .ok v true Ev.none
  else if dst.info.block then .ok (v % 256 ^ dst.info.size + 0x3F * 256 ^ dst.info.size) false Ev.none
  else match dst.info.fp.bind Fmt.poison with
    | some p => .ok p false Ev.none
    | none => .abort
/-- A converted element (04 R118, R120). -/
def cvtUnit (dst : Layout) (src : Fmt) (v : Nat) (psn : Bool) : UnitAns :=
  let f := dst.info.fp.getD f32
  let x := src.read v psn
  if x.p then
    match f.poison with
    | some p => .ok p false Ev.none
    | none => if dst.space == 0 then .ok f.nan true Ev.none else .abort
  else
    let r := f.op RNE [x] x.v
    .ok r.1 false r.2.2

/-- Read 32 source elements of a destination block, from coordinate k of dimension 0. -/
def readBlock (c : Copy) (co : List Nat) : Nat → Nat → State → Except UnitAns (List FIn) × State
  | 0, _, s => (.ok [], s)
  | n + 1, k, s =>
    match readUnit s c c.src (c.src.at_ c.srcO (setAt co 0 k)) with
    | (.pending, s) => (.error .pending, s)
    | (.fault t, s) => (.error (.fault t), s)
    | (.ok v psn, s) => match readBlock c co n (k + 1) s with
      | (.ok xs, s) => (.ok ((c.src.info.fp.getD f32).read v psn :: xs), s)
      | r => r

/-- The n-th element of a copy, read and converted. -/
def copyUnit (s : State) (c : Copy) (n : Nat) : UnitAns × State :=
  let co := c.dst.coords n
  if bit c.ctl 25 && bits c.ctl 29 3 == 5 then
    match readBlock c co 32 (32 * co.getD 0 0) s with
    | (.error a, s) => (a, s)
    | (.ok xs, s) => let r := makeBlock xs; (.ok r.1 false r.2, s)
  else match readUnit s c c.src (c.src.at_ c.srcO co) with
    | (.pending, s) => (.pending, s)
    | (.fault t, s) => (.fault t, s)
    | (.ok v psn, s) =>
      (if bit c.ctl 25 then cvtUnit c.dst (c.src.info.fp.getD f32) v psn else rawUnit c.dst v psn, s)

/-- Count a unit's events for the copy's grid (08 R209). -/
def copyEvents (s : State) (c : Copy) (ev : Ev) : State :=
  let cls := if c.dst.fmt == 0x12 then 5 else ((c.dst.info.fp.map Fmt.cls).getD 1)
  if bit c.ctl 25 then countFor s c.slot (((s.grid? c.grid).map fun g => g.r.kentry).getD 0) cls ev else s

/-! ### Watermarks of a copy -/

/-- The teams whose watermark a copy binds: the issuing team, and each named member of a multicast (04 R98). -/
def Copy.bound (c : Copy) (s : State) : List Nat :=
  let ms := c.into.filterMap fun p => memberTeam s c.team p.1
  if bit c.ctl 24 then c.team :: ms.filter fun t => t != c.team else [c.team]
/-- The teams that it lands in, in SPACE 1 and 2. -/
def Copy.targets (c : Copy) (s : State) : List Nat :=
  c.into.filterMap fun p => if p.2.2 then none else memberTeam s c.team p.1
/-- The teams whose MARK follows the landings: the named members of a multicast, else the issuing one. The unnamed issuing team of a
multicast keeps MARK = LO until the copy is DONE (19 R387, log 20). -/
def Copy.marked (c : Copy) (s : State) : List Nat :=
  if bit c.ctl 24 then c.into.filterMap fun p => memberTeam s c.team p.1 else [c.team]
def modMark (s : State) (team w : Nat) (f : Watermark → Watermark) : State :=
  s.modTeam team fun m => { m with marks := modAt m.marks w f }
def modMarks (s : State) (c : Copy) (f : Watermark → Watermark) : State :=
  (c.bound s).foldl (fun (s : State) t => modMark s t c.w f) s

/-- Count landed bytes into the copy's sync word, in the member that landed them (04 R116). -/
def syncLanded (s : State) (c : Copy) (team bytes : Nat) : State :=
  if !bit c.ctl 28 then s
  else
    let a : Dword := c.ext.getD 1 0
    let k := bits a 19 5
    let owner := if k == 31 then some team else memberTeam s c.team k
    match owner with
    | none => s
    | some o => s.modTeam o fun m =>
      if m.exited then m
      else
        let off := bits a 0 19
        { m with scratch := Mem.store m.scratch off 8 (syncBytes (Mem.load m.scratch off 8) bytes) }

/-- Bytes that a unit counts: codes and scale byte for a block (04 R116). -/
def Copy.unitBytes (c : Copy) (n : Nat) : Nat :=
  if c.swz then
    ((List.range c.dst.count).map fun i =>
      let a := c.dst.elem c.dstO i
      let lo := max a (c.markAt n)
      let hi := min (a + c.dst.whole) (c.lo + 128 * (n + 1))
      hi - lo).foldl (fun a b => a + b) 0
  else c.dst.whole

end Sys2Proof.Machine
end

