-- ==== Sys2Proof/Machine/Copyland.lean ====
section
/-! DEFINITION. The life of a copy after issue (04 R99 to R113, R116, R120, 03 R85, R87): landing, freezing, aborting,
resuming, its completion actions. -/
namespace Sys2Proof.Machine

/-- Ask for a copy to be looked at, once. -/
def pokeCopy (s : State) (id d : Nat) : State :=
  if s.agenda.any fun e => match e.2 with
    | .copyUnitLand k => k == id && e.1 ≤ d
    | _ => false then s
  else s.post d (.copyUnitLand id)
def pollCopy (s : State) (id : Nat) : State := pokeCopy s id (s.now + Config.pollTicks)

/-- A copy is finished: its slot frees (04 R121), and what waited for it goes on. -/
def copyGone (s : State) (c : Copy) : State :=
  let s : State := { s with copies := s.copies.filter fun x => x.id != c.id }
  let s := (s.copies.filter fun x => x.core == c.core).foldl (fun (s : State) x => pokeCopy s x.id s.now) s
  ((teamExit s c.team).post s.now (.gridComplete c.grid)).wake

/-- The interrupt that a copy asks for (04 R109). -/
def copyInterrupt (s : State) (c : Copy) : State :=
  if bit c.ctl 27 then kernelSend s c.slot c.grid (kernelIdent s c.grid) (bits c.ctl 34 6) (c.seq.truncate 32) else s
/-- A copy becomes ABORTED; it sends its interrupt and does nothing more (04 R107, R109). -/
def copyAborted (s : State) (c : Copy) (cause : Byte) : State :=
  copyGone (modMarks (copyInterrupt s c) c fun w => { w with state := 4, cause := cause }) c

/-- A frozen copy's watermarks say so, and a fault is reported once (04 R106, 15 R350). DESIGN CHOICE: ADDR of the record is MARK where
a landing was answered with a fault that names no address (log 90). -/
def copyFrozen (s : State) (c : Copy) (cause : Byte) : State :=
  let s := (modMarks s c fun w => if w.state == 1 then { w with state := 2, cause := cause } else w).wake
  if c.reported || !(cause == 0x05 || cause == 0x08) then s
  else
    let team := s.team? c.team
    let word0 := BitVec.ofNat 64 (cause.toNat + c.core * 2 ^ 37 + ((team.map Team.slot).getD 0) * 2 ^ 46 + c.w * 2 ^ 52 + 2 ^ 56)
    let addr := c.faultAddr.getD (BitVec.ofNat 64 (c.markAt c.next))
    let handle := ((s.grid? c.grid).map fun g => g.r.cblk).getD 0
    let s := s.modCopy c.id fun c => { c with reported := true }
    (s.modCtx c.slot fun x => { x with fqwait := x.fqwait ++ [([word0, addr, c.seq, handle], c.grid)] }).post s.now (.fqRetry c.slot)

/-- Copy slots of a core in use (04 R121). -/
def slotsUsed (s : State) (core : Nat) : Nat :=
  ((s.copies ++ s.leaving.flatMap SavedCluster.copies).filter fun c => c.core == core && c.hasSlot).length
/-- Copies of a core that go on as soon as a slot frees, ahead of new issue (04 R112). -/
def slotsWanted (s : State) (core : Nat) : Nat :=
  (s.copies.filter fun c => c.core == core && !c.hasSlot && c.frozen == some 0x21).length
/-- A frozen copy goes on (04 R106); one that has lost its slot by eviction takes one again: with none free it waits for one, as
a copy does that only eviction froze (04 R112). -/
def copyResume (s : State) (id : Nat) : State :=
  match s.copy? id with
  | none => s
  | some c =>
    if c.frozen.isNone then s
    else if !c.hasSlot && 8 ≤ slotsUsed s c.core then
      s.modCopy id fun c => { c with frozen := some 0x21, onMove := none, faultAddr := none, reported := false }
    else
      let s := s.modCopy id fun c => { c with frozen := none, onMove := none, faultAddr := none, reported := false, hasSlot := true }
      pokeCopy (modMarks s c fun w => if w.state == 2 then { w with state := 1, cause := 0 } else w).wake id s.now

/-- A fault at the next unit: PAGE_FAULT and REMOTE_TIMEOUT freeze, the rest abort (04 R106, R107). -/
def copyFault (s : State) (c : Copy) (t : Trap) : State :=
  if t.code == PAGE_FAULT || t.code == REMOTE_TIMEOUT then
    pokeCopy (s.modCopy c.id fun c => { c with frozen := some (BitVec.ofNat 8 t.code), reading := [], faultAddr := some t.addr }) c.id s.now
  else abortCopy s c.id (BitVec.ofNat 8 t.code)

/-- A copy whose next unit is homed at an endpoint that is lost is aborted with CAUSE 0x09 (05 R136); while its translation is not at
hand it is looked at again. -/
def copyOrphan (s : State) (lost : Nat → Bool) (c : Copy) : State :=
  if c.stage != .landing || c.dst.space != 0 || c.units ≤ c.next then s
  else match xlatNow s (dieOf c.core) c.slot (BitVec.ofNat 64 (c.dst.elem c.dstO c.next)) .write false with
    | (.ok pa _, s) => if lost (pa / 2 ^ 42) then abortCopy s c.id 0x09 else s
    | (.pending, s) => pollCopy s c.id
    | (.fault _, s) => s

/-- Earlier copies of the core whose destination ranges intersect, those that eviction has saved among them (04 R108). -/
def copyBehind (s : State) (c : Copy) : Bool :=
  (s.copies ++ s.saved.flatMap SavedCluster.copies).any fun x =>
    x.id < c.id && x.core == c.core && x.dst.space == c.dst.space && x.lo < c.hi && c.lo < x.hi
    && (match c.dst.space with
      | 0 => x.slot == c.slot
      | 1 => (x.targets s).any fun t => (c.targets s).contains t
      | _ => x.dst.tb == c.dst.tb && (x.targets s).any fun t => (c.targets s).contains t)

/-- Members whose teams have exited are skipped from now on; their share of `n` units counts as landed (04 R111, R116). DESIGN
CHOICE: a share that a named member's word counts arrives unit by unit, as it would have landed (log 70). -/
def copySkip (s : State) (c : Copy) (n : Nat) : State :=
  let gone := c.into.filter fun p => !p.2.2 && (match memberTeam s c.team p.1 with
    | some t => ((s.team? t).map Team.exited).getD true
    | none => true)
  gone.foldl (fun (s : State) p =>
    let s := s.modCopy c.id fun c => { c with into := c.into.map fun q => if q.1 == p.1 then (q.1, q.2.1, true) else q }
    if bits (c.ext.getD 1 0) 19 5 == 31 then s
    else (List.range n).foldl (fun s i => syncLanded s c c.team (c.unitBytes (c.next + i))) s) s

/-- Units up to `till` have landed: MARK, the sync word, their events, and on (04 R104, R116, 08 R209). What is carried is still to
land. DESIGN CHOICE: the events of a unit count once, however many members it lands in (log 96). -/
def copyLanded (s : State) (c : Copy) (till : Nat) (ev : Ev) : State :=
  let s := copyEvents s c ev
  let teams := if c.dst.space == 0 then [c.team] else c.targets s
  let s := (List.range (till - c.next)).foldl (fun s i =>
    teams.foldl (fun s t => syncLanded s c t (c.unitBytes (c.next + i))) s) s
  let mark := c.markAt till
  let s := s.modCopy c.id fun c => { c with next := till, sent := [] }
  ((c.marked s).foldl (fun (s : State) t => modMark s t c.w fun w => { w with mark := mark }) s).wake

/-! ### Landing, line by line -/

/-- What a line write collects: the bytes, the events of the units that it completes, the unit after the last, the rest of that one
where it crosses, and its events. -/
structure Gather where
  cur : CopyLine
  ev : Ev
  till : Nat
  carry : List CopyLine
  carryEv : Ev
deriving DecidableEq, Repr

/-- The pieces of n bytes at an address, line by line. -/
def linePieces : Nat → Nat → Nat → Nat → Bool → List (Nat × LineData × LineMask × Bool)
  | 0, _, _, _, _ => []
  | fuel + 1, a, n, v, psn =>
    if n == 0 then []
    else
      let k := min n (128 - a % 128)
      (a / 128, lineAt (a % 128) k v, maskAt (a % 128) k, psn) :: linePieces fuel (a + k) (n - k) (v / 256 ^ k) psn
/-- Where a destination line lies: translated for global memory, none while that is pending. DESIGN CHOICE: a fault of the translation
has the first byte of the line as its address (log 90). -/
def lineXlat (s : State) (c : Copy) (line : Nat) : Option (Except Trap (Nat × Bool × Bool)) × State :=
  if c.dst.space != 0 then (some (.ok (0, false, false)), s)
  else match placeOf s c.slot (line * 128) (xlatCopy s c.core c.slot (BitVec.ofNat 64 (line * 128)) .write) with
    | (.pending, s) => (none, s)
    | (.fault t, s) => (some (.error t), s)
    | (.ok pa nc cen, s) => (some (.ok (pa, nc, cen)), s)
/-- A unit's bytes in a line, and its scale byte, put into a line write. -/
def CopyLine.add (x : CopyLine) (d : LineData) (m : LineMask) (p : Bool) (sc : List (Nat × Nat)) : CopyLine :=
  { x with data := lineMerge x.data d m, mask := x.mask ||| m, psn := x.psn || p, scales := x.scales ++ sc }
/-- Units that start in one line are read and land together, with what is carried into it (03 R85): the first unit's fault, or
a read on its way. A unit that crosses is taken in once the page of its next line is translated too (04 R101). -/
def gather (c : Copy) (line : Nat) : Nat → Gather → State → Except UnitAns Gather × State
  | 0, g, s => (.ok g, s)
  | fuel + 1, g, s =>
    let a := c.dst.elem c.dstO g.till
    let stop (x : UnitAns) (s : State) : Except UnitAns Gather × State := if g.cur.mask == 0 then (.error x, s) else (.ok g, s)
    if c.units ≤ g.till || a / 128 != line then (.ok g, s)
    else match copyUnit s c g.till with
      | (.pending, s) => (.error .pending, s)
      | (.ok v psn ev, s) =>
        let scale := if c.dst.space == 2 && c.dst.info.block then
          [(scaleSlot a c.dst.info.size, v / 256 ^ c.dst.info.size)] else []
        match linePieces 3 a c.dst.unit v psn with
        | [] => (.ok g, s)
        | [(_, d, m, p)] => gather c line fuel { g with cur := g.cur.add d m p scale, ev := g.ev.add ev, till := g.till + 1 } s
        | (_, d, m, p) :: (l2, d2, m2, p2) :: _ => match lineXlat s c l2 with
          | (none, s) => (.error .pending, s)
          | (some (.error t), s) => stop (.fault t) s
          | (some (.ok (pa, nc, cen)), s) =>
            (.ok { g with cur := g.cur.add d m p [], till := g.till + 1
                          carry := [⟨l2, pa, nc, cen, d2, m2, p2, scale⟩], carryEv := ev }, s)
      | (x, s) => stop x s
/-- The next line write of a copy; with `rest` only what is carried, where the copy goes no further. Its line is translated when the
write is issued, a carried one too (01 R39, R40). -/
def nextLine (s : State) (c : Copy) (rest : Bool) : Except UnitAns Gather × State :=
  let line := match c.carry with
    | x :: _ => x.line
    | [] => c.dst.elem c.dstO c.next / 128
  match lineXlat s c line with
  | (none, s) => (.error .pending, s)
  | (some (.error t), s) => (.error (.fault t), s)
  | (some (.ok (pa, nc, cen)), s) => match c.carry with
    | x :: _ =>
      let g : Gather := ⟨{ x with pa := pa, nc := nc, cen := cen }, c.carryEv, c.next + 1, [], Ev.none⟩
      if rest then (.ok g, s) else gather c line 129 g s
    | [] => gather c line 129 ⟨⟨line, pa, nc, cen, 0, 0, false, []⟩, Ev.none, c.next, [], Ev.none⟩ s

/-- Send a line write of a copy whose destination is global; MARK moves when it is performed (04 R101). -/
def putGlobal (s : State) (c : Copy) (g : Gather) : State :=
  let x := g.cur
  let (id, s) := s.fresh
  (l2Arrive s ⟨id, x.pa / 128, c.slot, x.nc, x.cen, x.data, x.mask, x.psn, none, s.now + 1, .copy c.id c.next, x.line * 128, false,
    false, false⟩).modCopy c.id fun c => { c with sent := [(g.till - g.carry.length, 1)], carry := g.carry, sentEv := g.ev, carryEv := g.carryEv }

/-- Write bytes of a tile buffer, clearing the P bits of the words they touch (12 R294). -/
def Engine.putTile (e : Engine) (tb o n v : Nat) : Engine :=
  let a := tb * 0x4400 + o
  let words := (List.range ((a % 4 + n + 3) / 4)).map fun i => a / 4 + i
  { e with tiles := Mem.store e.tiles a n v, tileP := words.foldl (fun p w => putBit p w false) e.tileP }
/-- The marked bytes of a line, each with its offset. -/
def CopyLine.bytes (x : CopyLine) : List (Nat × Nat) :=
  ((List.range 128).filter fun i => x.mask.getLsbD i).map fun i => (x.line * 128 + i, lineGet x.data i 1)
/-- Land a line in each member, at one instant. -/
def putLocal (s : State) (c : Copy) (g : Gather) : State :=
  let targets := c.targets s
  let s :=
    if c.dst.space == 1 then
      targets.foldl (fun (s : State) t => s.modTeam t fun m => { m with
        scratch := g.cur.bytes.foldl (fun m b => Mem.set m b.1 (BitVec.ofNat 8 b.2)) m.scratch }) s
    else
      let put (e : Engine) : Engine := (g.cur.bytes ++ g.cur.scales).foldl (fun e b => e.putTile c.dst.tb b.1 1 b.2) e
      targets.foldl (fun (s : State) t =>
        s.modCore (((s.team? t).map Team.core).getD c.core) fun k => { k with engine := put k.engine }) s
  let till := g.till - g.carry.length
  pokeCopy ((copyLanded s c till g.ev).modCopy c.id fun c => { c with carry := g.carry, carryEv := g.carryEv }) c.id (s.now + 1)

/-- The bytes of a whole swizzled block: (offset, byte), with the events of the units that start in it (02 R52, 08 R209). -/
def swizzledBlock (c : Copy) (n : Nat) : List Nat → State → Except UnitAns (List (Nat × Nat) × Ev) × State
  | [], s => (.ok ([], Ev.none), s)
  | i :: rest, s =>
    let a := c.dst.elem c.dstO i
    let lo := c.lo + 128 * n
    if a + c.dst.whole ≤ lo || lo + 128 ≤ a then swizzledBlock c n rest s
    else match copyUnit s c i with
      | (.ok v _ ev, s) =>
        let mine := ((List.range c.dst.whole).filter fun k => lo ≤ a + k && a + k < lo + 128).map fun k =>
          (swizzle c.dst.swz (a + k), v / 256 ^ k % 256)
        match swizzledBlock c n rest s with
        | (.ok (bs, e), s) => (.ok (mine ++ bs, if lo ≤ a then ev.add e else e), s)
        | r => r
      | (x, s) => (.error x, s)
/-- An MMA issued earlier on the core still reads the tile buffer (04 R110). -/
def tileBusy (s : State) (core tb id : Nat) : Bool :=
  (s.core core).engine.queue.any fun o => o.id < id && !o.zero && (o.a == tb || o.b == tb)

/-! ### Claims of a matrix engine (12 R295) -/

/-- Whether a team's claim of the engine of its core is granted: it then reads zero, or what eviction saved. A team that has exited
claims nothing. -/
def claimEngine (s : State) (team : Nat) : Option State :=
  match (s.team? team).filter fun m => !m.exited with
  | none => some s
  | some m =>
    let e := (s.core m.core).engine
    match e.holder with
    | some h => if h == team then some s else none
    | none =>
      let e := { m.engine.getD Engine.free with holder := some team }
      some ((s.modCore m.core fun k => { k with engine := e }).modTeam team fun m => { m with engine := none })
/-- Claims by several teams: those of free engines are granted at once; the first core whose engine is waited for. -/
def claimEngines (s : State) (teams : List Nat) : Option Nat × State :=
  teams.foldl (fun (r : Option Nat × State) t => match claimEngine r.2 t with
    | some s => (r.1, s)
    | none => (r.1.or (some (((r.2.team? t).map Team.core).getD 0)), r.2)) (none, s)
/-- The teams whose engines a copy uses: the issuing one's for its source, those that it lands in. -/
def Copy.claims (c : Copy) (s : State) : List Nat :=
  (if c.src.space == 2 then [c.team] else []) ++ (if c.dst.space == 2 then c.targets s else [])

/-- The next landing of a copy: a line, or a swizzled block. A copy that eviction has taken off its engines claims them again
first (log 71). -/
def landNext (s : State) (c : Copy) (rest : Bool) : State :=
  let coreOf (t : Nat) : Nat := ((s.team? t).map Team.core).getD c.core
  let bad (x : UnitAns) (s : State) : State := match x with
    | .pending => pollCopy s c.id
    -- a carried rest whose page is lost does not land: its unit is landed anew, or never
    | .fault t => copyFault (s.modCopy c.id fun c => { c with carry := [] }) c t
    | _ => abortCopy s c.id 0x0A
  if c.dst.space == 2 && (c.targets s).any fun t => tileBusy s (coreOf t) c.dst.tb c.id then pollCopy s c.id
  else match claimEngines s (c.claims s) with
    | (some _, s) => pollCopy s c.id
    | (none, s) =>
      if c.swz then
        match swizzledBlock c c.next (List.range c.dst.count) s with
        | (.ok (bs, ev), s) =>
          let s := (c.targets s).foldl (fun (s : State) t => s.modTeam t fun m => { m with
            scratch := bs.foldl (fun m b => Mem.set m b.1 (BitVec.ofNat 8 b.2)) m.scratch }) s
          pokeCopy (copyLanded s c (c.next + 1) ev) c.id (s.now + 1)
        | (.error x, s) => bad x s
      else match nextLine s c rest with
        | (.error x, s) => bad x s
        | (.ok g, s) => if c.dst.space == 0 then putGlobal s c g else putLocal s c g

/-! ### The copy's events -/

/-- COPY UNIT LAND (04 R101): whatever a copy can do next. A unit whose first part is written lands whole before the copy is
frozen or aborted. -/
def copyUnitLand (s : State) (id : Nat) : State :=
  match s.copy? id with
  | none => s
  | some c =>
    if !c.sent.isEmpty then s
    else if !c.carry.isEmpty && (c.aborting.isSome || c.frozen.isSome) then
      let s := copySkip s c (if c.aborting.isSome then 1 else c.units - c.next)
      match s.copy? id with
      | some c => landNext s c true
      | none => s
    else match c.aborting with
      | some cause => copyAborted s c cause
      | none => match c.frozen with
        | some cause =>
          if cause == 0x21 && !c.hasSlot then copyResume s id
          else
            let s := copyFrozen s c cause
            if s.isolated || (List.range 256).any (deadCell s) then copyOrphan s (epLost s) c else s
        | none =>
          if c.stage == .stamped then s.post s.now (.copyStampPerformed id)
          else if c.stage == .stamping then s.post s.now (.copyLandingsComplete id)
          else if copyBehind s c then pollCopy s id
          else
            let s := copySkip s c (c.units - c.next)
            match s.copy? id with
            | none => s
            | some c =>
              -- every member that it lands in is skipped: all has landed (04 R109, R111)
              if c.dst.space != 0 && c.next < c.units && (c.targets s).isEmpty then pokeCopy (copyLanded s c c.units Ev.none) id s.now
              else if c.units ≤ c.next then
                (s.modCopy id fun c => { c with stage := .stamping }).post s.now (.copyLandingsComplete id)
              else landNext s c false

/-- COPY LINE WRITE PERFORMED (04 R104): the units that the line completes have landed. -/
def copyLineWritten (s : State) (id unit : Nat) : State :=
  match s.copy? id with
  | none => s
  | some c => match c.sent with
    | [] => s
    | (till, _) :: _ => if unit != c.next then s else pokeCopy (copyLanded s c till c.sentEv) id s.now

/-- COPY LANDINGS COMPLETE (04 R109): the tail stamp, at its scope (03 R87), as a store of the issuing core. -/
def copyLandingsDone (s : State) (id : Nat) : State :=
  match s.copy? id with
  | none => s
  | some c =>
    if c.stage != .stamping || c.aborting.isSome || c.frozen.isSome || !c.sent.isEmpty then s
    else if !bit c.ctl 26 then (s.modCopy id fun c => { c with stage := .stamped }).post s.now (.copyStampPerformed id)
    else
      let again (s : State) : State := s.post (s.now + Config.pollTicks) (.copyLandingsComplete id)
      let span := bits c.ctl 32 2 == 2 && c.dst.space == 0
      let s := if span then flushUntracked s c.slot else s
      let va := (c.ext.getD 2 0).toNat
      if span && untrackedOpen s c.slot then again s
      else match placeOf s c.slot va (xlatCopy s c.core c.slot (BitVec.ofNat 64 va) .write) with
        | (.pending, s) => again s
        | (.fault t, s) => copyFault s c t
        | (.ok pa nc cen, s) =>
          match sbStore s c.core c.slot (pa / 128) (va / 128 * 128) nc cen (lineAt (pa % 128) 8 c.seq.toNat) (maskAt (pa % 128) 8)
              false false ⟨id, 0, 1⟩ with
          | (none, s) => again s
          | (some s, _) => s.modCopy id fun c => { c with sent := [(c.next, 1)] }

/-- COPY STAMP PERFORMED (04 R109): the interrupt, then DONE. -/
def copyStamped (s : State) (id : Nat) : State :=
  match s.copy? id with
  | none => s
  | some c =>
    if c.stage != .stamped then s
    else if c.aborting.isSome || c.frozen.isSome then pokeCopy s id s.now
    else copyGone (modMarks (copyInterrupt s c) c fun w => { w with state := 3, mark := c.hi }) c

end Sys2Proof.Machine
end

