-- ==== Sys2Proof/Machine/Copy.lean ====
section
/-! DEFINITION. Copies, sync words and watermarks as instructions (12 R288 to R293, 04 R96, R98): CPY, SWINIT, BARA, BARD,
WMRD, WMCLR, WMABORT. -/
namespace Sys2Proof.Machine

/-! ### CPY -/

/-- LAYOUT_INVALID has DST and SRC of the control word as its TRAPADDR (15 R336). -/
def layoutTrap (ctl : Dword) : Trap := ⟨LAYOUT_INVALID, 0, ctl &&& 0xFFFFF⟩
/-- The reserved bits of a control word and the fields that must be zero (04 R95, R96 step 2). -/
def ctlBad (ctl mask : Dword) : Bool :=
  let f (lo len : Nat) : Nat := bits ctl lo len
  f 40 24 != 0 || (bit ctl 24 && bits mask 12 52 != 0) || (!bit ctl 27 && f 34 6 != 0) || (!bit ctl 26 && f 32 2 != 0)
    || (!bit ctl 25 && f 29 3 != 0) || 6 ≤ f 29 3 || f 32 2 == 3
/-- The members that a copy lands in: a multicast's mask, else the issuing team's own where the space has members. -/
def copyMembers (ctl mask : Dword) (own : Nat) (space : Nat) : List Nat :=
  if bit ctl 24 then (List.range 12).filter fun k => bit mask k
  else if space == 0 then [] else [own]
/-- Whether the source and the destination ranges meet (04 R100). -/
def rangesMeet (s : State) (t : Thread) (src dst : Layout) (so do_ : List Nat) (members : List Nat) : Bool :=
  let a := src.range so
  let b := copyRange dst do_
  let hit := a.1 < b.2 && b.1 < a.2
  let teams := members.filterMap fun k => memberTeam s t.team k
  src.space == dst.space && hit && (match src.space with
    | 0 => true
    | 1 => teams.contains ((memberTeam s t.team src.member).getD t.team)
    | _ => src.tb == dst.tb && teams.contains t.team)
/-- Sync words that step 10 reads: their teams. -/
def syncTeams (s : State) (t : Thread) (ctl : Dword) (k : Nat) (members : List Nat) : List Nat :=
  if k == 31 && bit ctl 24 then members.filterMap fun m => memberTeam s t.team m else (memberTeam s t.team k).toList

/-- Steps 5 to 11 of 04 R96, once the records are read. DESIGN CHOICE: a source record of SPACE 1 that names a member outside
the cluster is LAYOUT_INVALID (log 68); a sync word of a member that has exited is not checked (log 69). -/
def copyCheck (s : State) (ctl : Dword) (ext : List Dword) (so do_ : List Nat) (sv dv : Nat) : Except Trap (Layout × Layout × List Nat) :=
  let t := s.cur
  let own := ((s.team? t.team).map Team.member).getD 0
  let scrb := ((s.gridOf t).map fun g => g.r.scrb).getD 0
  let count := ((s.clusterOf t.team).map fun c => c.members.length).getD 1
  let stamp := ext.getD 2 0
  let sync := ext.getD 1 0
  match parseLayout sv, parseLayout dv with
  | some src, some dst =>
    let members := copyMembers ctl (ext.getD 0 0) own dst.space
    let memberOk (l : Layout) : Bool := l.space != 1 || l.member == 31 || l.member < count
    if !src.bounded so scrb || !dst.bounded do_ scrb || !layoutsPair ctl src dst || (bit ctl 24 && dst.space == 0)
        || !memberOk src || (dst.space == 1 && dst.member != 31 && dst.member != own)
        || !dst.ascending || rangesMeet s t src dst so do_ members then .error (layoutTrap ctl)
    else if bit ctl 26 && bits stamp 57 7 != 0 then .error ⟨ACCESS_VIOLATION, 1, stamp⟩
    else if bit ctl 26 && bits stamp 0 3 != 0 then .error ⟨MISALIGNED, 0, stamp⟩
    else
      let syncFault : Option Trap :=
        if !bit ctl 28 then none
        else match scratchAddr s t.team sync 8 with
          | .error d => some ⟨ACCESS_VIOLATION, d, sync⟩
          | .ok (_, off) =>
            if off % 8 != 0 then some ⟨MISALIGNED, 0, sync⟩
            else if (syncTeams s t ctl (bits sync 19 5) members).any fun m => match s.team? m with
              | some m => !m.exited && !syncBytesOk (Mem.load m.scratch off 8)
              | none => false then some ⟨SYNCWORD_INVALID, 0, sync⟩
            else none
      match syncFault with
      | some f => .error f
      | none =>
        let w := bits ctl 20 4
        let teams := t.team :: (if bit ctl 24 then members.filterMap fun k => memberTeam s t.team k else [])
        match (teams.map fun m => (s.marksOf m).getD w Watermark.idle).find? fun m => m.state == 4 with
        | some m => .error ⟨COPY_ABORTED, 0, BitVec.ofNat 64 m.mark⟩
        | none => .ok (src, dst, members)
  | _, _ => .error (layoutTrap ctl)

/-- An active copy of the core whose source reads are not all performed, and meet a destination range (04 R98). -/
def overwrites (s : State) (c : Copy) : Bool :=
  s.copies.any fun x => x.core == c.core && x.next < x.units && x.src.space == c.dst.space &&
    (let a := x.src.range x.srcO
     a.1 < c.hi && c.lo < a.2) && (match c.dst.space with
      | 0 => x.slot == c.slot
      | 1 => (c.targets s).contains ((memberTeam s x.team x.src.member).getD x.team)
      | _ => x.src.tb == c.dst.tb && (c.targets s).contains x.team)

/-- Claims, waits and issue (04 R98, 12 R295): the sequence number is taken and the watermarks are bound. -/
def copyIssue (s : State) (ctl : Dword) (ext : List Dword) (so do_ : List Nat) (src dst : Layout) (members : List Nat) : Res :=
  let t := s.cur
  let claims := (if src.space == 2 then [t.team] else []) ++
    (if dst.space == 2 then members.filterMap fun k => memberTeam s t.team k else [])
  match claimEngines s (claims.filter fun m => !((s.team? m).map Team.exited).getD true) with
  | (some core, s) => .wait s (.engine core)
  | (none, s) =>
    let grid := s.gridOf t
    let slot := s.slotOf t
    let (id, s') := s.fresh
    let seq := (s.ctx slot).cpyseq.getD t.core 0
    let c : Copy := ⟨id, t.team, t.core, (grid.map Grid.id).getD 0, slot, ctl, ext, so, do_, src, dst, seq,
      members.map fun m => (m, 0, false), [], [], [], Ev.none, Ev.none, 0, .landing, none, none, none, none, true, false⟩
    let bound := c.bound s
    match bound.find? fun m => let st := ((s.marksOf m).getD c.w Watermark.idle).state; st == 1 || st == 2 with
    | some m => .wait s (.watermark (((s.team? m).map Team.member).getD 0) c.w)
    | none =>
      if 8 ≤ slotsUsed s t.core + slotsWanted s t.core || overwrites s c then .stall s
      else
        let s := s'.modCtx slot fun x => { x with cpyseq := modAt x.cpyseq t.core (· + 1) }
        let mark : Watermark := ⟨seq.truncate 32, 0, BitVec.ofNat 3 dst.tb, BitVec.ofNat 2 dst.space, 1, c.lo, c.hi, c.lo,
          if dst.info.block then dst.info.size else 0⟩
        let s := modMarks { s with copies := s.copies ++ [c] } c fun _ => mark
        .ok (pokeCopy s id (s.now + 1))

/-- The wait behind a watermark of a team that holds one of n bytes, then the body (04 R105). -/
def markHeld (s : State) (team space a n : Nat) (k : Res) : Res :=
  match heldBy (s.marksOf team) space 0 a n with
  | .wait => .wait s (.watermark (((s.team? team).map Team.member).getD 0)
      (((s.marksOf team).findIdx? fun w => w.state != 4 && (w.holds space 0 a n).isSome).getD 0))
  | .aborted b => .trap s ⟨COPY_ABORTED, 0, BitVec.ofNat 64 b⟩
  | .free => k

/-- CPY after its leader is chosen (12 R289): poison, steps 1 to 4 of 04 R96, then the rest. -/
def copyFrom (s : State) (r : SReg) (xs ys : List (Nat × Bool)) : Res :=
  let t := s.cur
  let ctl := t.getS r
  if (xs ++ ys).any Prod.snd || ctl.p then .trap s poisonTrap
  else
    let need (i : Nat) : Bool := bit ctl.v (match i with
      | 1 => 24
      | 2 => 28
      | _ => 26)
    let used := [1, 2, 3].filter need
    if used.any fun i => 32 ≤ r.val + i then .trap s (hereTrap s ILLEGAL_INSN 0x06)
    else if t.interlocked (used.map fun i => rS (Fin.ofNat 32 (r.val + i))) then .stall s
    else if used.any fun i => (t.getRun r i).p then .trap s poisonTrap
    else
      let ext := [1, 2, 3].map fun i => if need i then (t.getRun r i).v else 0
      let mask := ext.getD 0 0
      let count := ((s.clusterOf t.team).map fun c => c.members.length).getD 1
      if ctlBad ctl.v mask then .trap s (layoutTrap ctl.v)
      else if bit ctl.v 24 && (mask == 0 || bits mask count (12 - count) != 0) then .trap s ⟨MCAST_RANGE, 0, mask⟩
      else if !(release .core s).1 || replayFull s t.core then .stall s
      else
        let lt := ((s.gridOf t).map fun g => g.r.ltbase).getD 0
        let base := (if lt == 0 then (s.ctxOf t).ltbase else lt).toNat
        markHeld s t.team 0 (base + 64 * bits ctl.v 0 10) 64 <| markHeld s t.team 0 (base + 64 * bits ctl.v 10 10) 64 <|
        match coreRead s t.core (s.slotOf t) false (base + 64 * bits ctl.v 0 10) 64 with
        | (.pending, s) => .stall s
        | (.fault f, s) => .trap s f
        | (.ok sv sp, s) => match coreRead s t.core (s.slotOf t) false (base + 64 * bits ctl.v 10 10) 64 with
          | (.pending, s) => .stall s
          | (.fault f, s) => .trap s f
          | (.ok dv dp, s) =>
            if sp || dp then .trap s poisonTrap
            else
              let so := xs.map Prod.fst
              let do_ := ys.map Prod.fst
              match copyCheck s ctl.v ext so do_ sv dv with
              | .error f => .trap s f
              | .ok (src, dst, members) => copyIssue s ctl.v ext so do_ src dst members

/-- The five coordinates of an operand in a lane. -/
def coordsIn (t : Thread) (o : XOpnd) (L : Nat) : List (Nat × Bool) :=
  (List.range 5).map fun i => match o with
    | .v r => let x := t.lane (t.wbase + r.val + i) L; (x.v.toNat, x.p)
    | .s r => let x := t.getRun r i; (x.v.toNat % 2 ^ 32, x.p)
def setNl (s : State) (b : Bool) : State := s.modCur fun t => { t with cc := { t.cc with nl := b } }

/-! ### Sync word operations -/

/-- The checks of 12 R290 and R291 on a sync word address, then the team that holds the word and its offset. -/
def syncIssue (s : State) (x : SVal) (k : Nat → Nat → Res) : Res :=
  if x.p then .trap s poisonTrap
  else match scratchAddr s s.cur.team x.v 8 with
    | .error d => .trap s ⟨ACCESS_VIOLATION, d, x.v⟩
    | .ok (team, off) => if off % 8 != 0 then .trap s ⟨MISALIGNED, 0, x.v⟩ else k team off
/-- The wait behind a watermark that holds the word's bytes (04 R105). -/
def syncHeld (s : State) (team off : Nat) (k : Res) : Res := markHeld s team 1 off 8 k
/-- Scratchpad accesses of the thread that are not performed yet. -/
def scratchOpen (t : Thread) : Bool := t.liveLog.any fun e => isScratch e.op && e.unperformed != 0

/-- One party arrival (12 R291): the release, the arrival, the old generation into S[d]; `w` waits for the phase. -/
def partyArrive (s : State) (d a : SReg) (bard w : Bool) : Res :=
  let x := s.cur.getS a
  syncIssue s x fun team off => syncHeld s team off (
    let sc : Scope := if team == s.cur.team then .core else .pkg
    match release sc s with
    | (false, s) => .stall s
    | (true, s) =>
      let put (s : State) (g : Nat) : Option State := (s.cur.putRun d.val [⟨BitVec.ofNat 64 g, false⟩]).map fun t => { s with cur := t }
      match s.team? team with
      | none => putScalars s d.val [⟨0, false⟩]
      | some m =>
        if m.exited then putScalars s d.val [⟨0, false⟩]
        else
          let old := Mem.load m.scratch off 8
          if !syncPartyOk old then .trap s ⟨SYNCWORD_INVALID, 0, x.v⟩
          else
            let r := syncParty old bard
            let s := (s.modTeam team fun m => { m with scratch := Mem.store m.scratch off 8 r.1 }).wake
            if r.2 then .trap s ⟨BARRIER_OVERRUN, 0, x.v⟩
            else
              let g := syncGen old
              if w && syncGen r.1 == g then .wait ((put s g).getD s) (.bara x.v (BitVec.ofNat 16 g) sc)
              else putScalars s d.val [⟨BitVec.ofNat 64 g, false⟩])
/-- The wait of BARA.W (12 R291): until the word's GEN differs, or its member has exited. -/
def baraWait (s : State) (addr : Dword) (gen : BitVec 16) : Res :=
  match scratchAddr s s.cur.team addr 8 with
  | .error _ => .ok s
  | .ok (team, off) => match s.team? team with
    | none => .ok s
    | some m => if m.exited || syncGen (Mem.load m.scratch off 8) != gen.toNat then .ok s else .stall s

/-- The four words of a watermark register (04 R103). -/
def Watermark.words (w : Watermark) : List Dword :=
  [BitVec.ofNat 64 (w.seql.toNat * 2 ^ 32 + w.cause.toNat * 2 ^ 24 + w.tb.toNat * 2 ^ 16 + w.space.toNat * 2 ^ 8 + w.state.toNat),
   BitVec.ofNat 64 (w.lo % 2 ^ 58), BitVec.ofNat 64 (w.hi % 2 ^ 58), BitVec.ofNat 64 (w.mark % 2 ^ 58)]

/-- 12 R289. DEDUCED: NL is cleared as soon as the leader is found, before a poisoned operand traps (log 75). -/
def execCpy (c : SReg) (p : PReg) (a : XOpnd) (b : XOpnd) (s : State) : Host.Outcome State Fault Refusal :=
  issue userSeq [rS c, rP p, rRun5 a, rRun5 b] s fun s =>
    let t := s.cur
    if t.stream then copyFrom (setNl s false) c (coordsIn t a 0) (coordsIn t b 0)
    else match (lanesOf t.mask).find? fun L => (t.getPL p L).1 with
      | none => .ok (setNl s true)
      | some L => copyFrom (setNl s false) c (coordsIn t a L) (coordsIn t b L)

/-- 12 R290. -/
def execSwinit (a : SReg) (b : SReg) (s : State) : Host.Outcome State Fault Refusal :=
  issue userSeq [rS a, rS b] s fun s =>
    let x := s.cur.getS a
    let y := s.cur.getS b
    if x.p || y.p then .trap s poisonTrap
    else syncIssue s x fun team off =>
      if bits y.v 0 40 != 0 then .trap s ⟨SYNCWORD_INVALID, 0, x.v⟩
      else syncHeld s team off (
        if scratchOpen s.cur then .stall s
        else
          let set (m : Team) : Team :=
            if m.exited then m
            else
              let old := Mem.load m.scratch off 8
              { m with scratch := Mem.store m.scratch off 8 (syncWord (bits y.v 63 1) (bits y.v 40 23) 0 (syncGen old) 0) }
          .ok (s.modTeam team set).wake)

/-- 12 R291. -/
def execBara (d : SReg) (a : SReg) (w : Bool) (s : State) : Host.Outcome State Fault Refusal :=
  issue userSeq [wS d, rS a] s fun s =>
    partyArrive s d a false w

/-- 12 R291. -/
def execBard (d : SReg) (a : SReg) (s : State) : Host.Outcome State Fault Refusal :=
  issue userSeq [wS d, rS a] s fun s =>
    partyArrive s d a true false

/-- 12 R292. -/
def execWmrd (d : SReg) (n : Fin 16) (s : State) : Host.Outcome State Fault Refusal :=
  issue userSeq [wSn d 4] s fun s =>
    putScalars s d.val (((s.marksOf s.cur.team).getD n.val Watermark.idle).words.map fun x => ⟨x, false⟩)

/-- 12 R293. -/
def execWmclr (n : Fin 16) (s : State) : Host.Outcome State Fault Refusal :=
  issue userSeq [] s fun s =>
    let st := ((s.marksOf s.cur.team).getD n.val Watermark.idle).state
    if st == 1 || st == 2 then .wait s (.watermark (((s.team? s.cur.team).map Team.member).getD 0) n.val)
    else .ok (modMark s s.cur.team n.val fun _ => Watermark.idle).wake

/-- 12 R293. -/
def execWmabort (n : Fin 16) (s : State) : Host.Outcome State Fault Refusal :=
  issue userSeq [] s fun s =>
    let team := s.cur.team
    match s.copies.find? fun c => c.w == n.val && (c.bound s).contains team with
    | some c => .ok (abortCopy s c.id 0x0C)
    | none => .ok s

end Sys2Proof.Machine
end

