-- ==== Sys2Proof/Machine/Launch.lean ====
section
/-! DEFINITION. Launch records (06 R161 to R166), after conditions (06 R162), the dispatch unit (14 R323 to R325, 06 R168),
the completion of grids (06 R170, R171), and graphs (17 R373). -/
namespace Sys2Proof.Machine

/-! ### Reading a launch record (06 R161, R163, R164) -/

/-- The fields of a record and of its completion block. -/
def parseLaunch (v cb : Nat) : LaunchRec :=
  let f (i lo len : Nat) : Nat := v / 2 ^ (64 * i + lo) % 2 ^ len
  let g (i lo len : Nat) : Nat := cb / 2 ^ (64 * i + lo) % 2 ^ len
  let d (i : Nat) : Dword := BitVec.ofNat 64 (f i 0 64)
  let e (i : Nat) : Dword := BitVec.ofNat 64 (g i 0 64)
  {
    kentry := d 0, sentry := d 1, gpt := f 2 56 4, ch := f 2 52 4, cw := f 2 48 4, gz := f 2 32 16, gy := f 2 16 16, gx := f 2 0 16,
    ciq := f 3 45 1 == 1, cts := f 3 44 1 == 1, csw := f 3 43 1 == 1, naft := f 3 40 3, lr := f 3 38 1 == 1, prio := f 3 36 2,
    eclass := f 3 32 3, scrb := f 3 12 20, regs := f 3 8 3, lastl := f 3 0 7, ltbase := d 4, param := d 5, aftb := d 6,
    cblk := d 7, swaddr := e 1, tsaddr := e 2, tsval := e 3, uiv := g 4 32 6, uidata := BitVec.ofNat 32 (g 4 0 32) }

/-- Energy class weights (06 R167). -/
def energyWeight (c : Nat) : Nat := [1, 2, 3, 4, 6, 8, 12, 16].getD c 1
def LaunchRec.cost (r : LaunchRec) : Nat := energyWeight r.eclass * (r.gpt + 1)
def LaunchRec.allot (r : LaunchRec) : Nat := (r.regs + 1) * 32

/-- Faults of the record itself (06 R164). DESIGN CHOICE: an AFTB that is not zero where NAFT is zero is one of them (log
73). -/
def recordBad (v : Nat) : Bool :=
  let f (i lo len : Nat) : Nat := v / 2 ^ (64 * i + lo) % 2 ^ len
  let r := parseLaunch v 0
  f 0 57 7 != 0 || f 0 0 2 != 0 || f 1 57 7 != 0 || f 1 0 2 != 0 || f 2 60 4 != 0 || f 3 46 18 != 0 || f 3 39 1 != 0
    || f 3 35 1 != 0 || f 3 11 1 != 0 || f 3 7 1 != 0 || f 4 57 7 != 0 || f 4 0 16 != 0 || f 6 0 6 != 0 || f 7 0 6 != 0
    || r.cblk == 0 || (r.naft == 0 && r.aftb != 0) || r.gx == 0 || r.gy == 0 || r.gz == 0 || r.cw == 0 || r.ch == 0 || 10 < r.cw
    || 8 < r.ch || 12 < r.cw * r.ch || r.lastl == 0 || 96 < r.lastl || 524288 < r.scrb || 3072 < (r.gpt + 1) * r.allot
    || 192 < r.cost || 4 < r.naft
/-- Faults of the completion block (06 R163, R164). -/
def blockBad (r : LaunchRec) (cb : Nat) : Bool :=
  let g (i lo len : Nat) : Nat := cb / 2 ^ (64 * i + lo) % 2 ^ len
  g 4 38 26 != 0 || g 5 0 64 != 0 || g 6 0 64 != 0 || g 7 0 64 != 0 || (r.csw && bits r.swaddr 0 3 != 0)
    || (r.cts && bits r.tsaddr 0 3 != 0)
/-- The after entries, or none where one is malformed (06 R162). DESIGN CHOICE: one of KIND 2 whose GENV is not zero is refused (log 73). -/
def parseAfter (n v : Nat) : Option (List AfterCond) :=
  let es := (List.range n).map fun i =>
    let w0 := v / 2 ^ (128 * i) % 2 ^ 64
    let w1 := v / 2 ^ (128 * i + 64) % 2 ^ 64
    (w0 / 2 ^ 60, w0 / 2 ^ 57 % 8, w0 % 2 ^ 57, w1)
  if es.all fun e => e.2.1 == 0 && e.2.2.2 < 2 ^ 16 && (if e.1 == 1 then e.2.2.1 % 8 == 0
      else e.1 == 2 && e.2.2.1 % 64 == 0 && e.2.2.2 == 0) then
    some (es.map fun e => ⟨e.1, BitVec.ofNat 64 e.2.2.1, BitVec.ofNat 16 e.2.2.2, false⟩)
  else none
/-- Whether the word of a condition satisfies it (06 R162). -/
def AfterCond.test (a : AfterCond) (w : Nat) : Bool :=
  if a.kind == 1 then (syncGen w + 65536 - a.genv.toNat) % 65536 < 32768 else w % 2 == 1
/-- Read the conditions that are not yet satisfied, each by a span-coherent load: pending, or the first fault, with what has
been found. -/
def readAfter (s : State) (slot : Nat) (as : List AfterCond) : Option (Option Trap) × List AfterCond × State :=
  as.foldl (fun r a =>
    if a.sat then (r.1, r.2.1 ++ [a], r.2.2)
    else match devReadFrom true 0 slot false 2 a.addr.toNat 8 r.2.2 with
      | (.pending, s) => (none, r.2.1 ++ [a], s)
      | (.fault t, s) => (r.1.map fun o => o.or (some t), r.2.1 ++ [a], s)
      | (.ok v psn, s) => (r.1, r.2.1 ++ [{ a with sat := !psn && a.test v }], s)) (some none, [], s)

/-- Read n bytes as loads of a launch, line by line: a poisoned line reads zero (06 R164, 11 R272). -/
def zeroRead (die slot : Nat) : Nat → Nat → Nat → State → DAns × State
  | 0, _, _, s => (.ok 0 false, s)
  | fuel + 1, va, n, s =>
    if n == 0 then (.ok 0 false, s)
    else
      let k := min n (128 - va % 128)
      match devRead s die slot false (BitVec.ofNat 64 va) k with
      | (.ok v p, s) => match zeroRead die slot fuel (va + k) (n - k) s with
        | (.ok w _, s) => (.ok ((if p then 0 else v) + w * 256 ^ k) false, s)
        | r => r
      | r => r
/-- An answer to a read of the launching group: a watermark of its team holds the bytes (04 R105), or what memory answers. -/
inductive GroupAns where
  | held (w : Nat)
  | ans (a : DAns)
deriving DecidableEq, Repr
/-- Read n bytes within a page as a load of the group whose team has these watermarks; a port launch has none (06 R164). -/
def groupRead (s : State) (die slot : Nat) (marks : List Watermark) (a : Dword) (n : Nat) : GroupAns × State :=
  match xlatNow s die slot a .read false with
  | (.pending, s) => (.ans .pending, s)
  | (.fault t, s) => (.ans (.fault t), s)
  | (.ok _ _, s) => match heldBy marks 0 0 a.toNat n with
    | .wait => (.held ((marks.findIdx? fun w => w.state != 4 && (w.holds 0 0 a.toNat n).isSome).getD 0), s)
    | .aborted b => (.ans (.fault ⟨COPY_ABORTED, 0, BitVec.ofNat 64 b⟩), s)
    | .free =>
      let r := zeroRead die slot (n / 128 + 2) a.toNat n s
      (.ans r.1, r.2)

/-- The die that 06 R146 prefers: one beside the stack that homes the parameter page; none while the walk is on its way. -/
def paramDie (s : State) (slot : Nat) (p : Dword) : Option (Option Nat) × State :=
  if p == 0 || bits p 57 7 != 0 then (some none, s)
  else match walkFor s 0 slot p.toNat with
    | (.pending _, s) => (none, s)
    | (.fault _ _, s) => (some none, s)
    | (.ok e, s) =>
      let line := e.phys p.toNat / 128
      (some (if isLocal s line then some (stackOf line / 2) else none), s)

/-- What becomes of a launch request. -/
inductive LaunchAns where
  | ok (g : Grid)
  | refused (t : Trap) (cblk : Dword)
  | pending
  /-- it waits behind a watermark of the launching group's team -/
  | held (w : Nat)
deriving DecidableEq, Repr

def refusal : Trap := ⟨ACCESS_VIOLATION, 0x30, 0⟩

/-- Accept or refuse the launch whose record's 64 bytes are `v` (06 R164). DESIGN CHOICE: of several causes the first in this order is
reported: the record, the reads of the completion block and of the after block, the after entries, the completion block, the first reads
of the conditions (log 95). -/
def launchWith (s : State) (slot die : Nat) (marks : List Watermark) (at_ : Dword) (v : Nat) (port : Bool)
    (node : Option (Nat × Nat)) : LaunchAns × State :=
  let r := parseLaunch v 0
  let cblk := if bits r.cblk 0 6 == 0 then r.cblk else 0
  if recordBad v then (.refused refusal cblk, s)
  else match groupRead s die slot marks r.cblk 64 with
    | (.held w, s) => (.held w, s)
    | (.ans .pending, s) => (.pending, s)
    | (.ans (.fault t), s) => (.refused t 0, s)
    | (.ans (.ok cb _), s) =>
      let r := parseLaunch v cb
      let aft := if r.naft == 0 then (GroupAns.ans (.ok 0 false), s) else groupRead s die slot marks r.aftb (16 * r.naft)
      match aft with
      | (.held w, s) => (.held w, s)
      | (.ans .pending, s) => (.pending, s)
      | (.ans (.fault t), s) => (.refused t cblk, s)
      | (.ans (.ok av _), s) => match parseAfter r.naft av with
        | none => (.refused refusal cblk, s)
        | some as =>
          if blockBad r cb then (.refused refusal cblk, s)
          else match readAfter s slot as with
            | (none, _, s) => (.pending, s)
            | (some (some t), _, s) => (.refused t cblk, s)
            | (some none, as, s) => match paramDie s slot r.param with
              | (none, s) => (.pending, s)
              | (some die, s) =>
                let (id, s) := s.fresh
                (.ok ⟨id, slot, at_, r, port, die, as, .waiting, 0, false, 0, [], node, [], none⟩, s)
/-- The same from the record's address. -/
def launchAt (s : State) (slot die : Nat) (marks : List Watermark) (at_ : Dword) (port : Bool) : LaunchAns × State :=
  match groupRead s die slot marks at_ 64 with
  | (.held w, s) => (.held w, s)
  | (.ans .pending, s) => (.pending, s)
  | (.ans (.fault t), s) => (.refused t 0, s)
  | (.ans (.ok v _), s) => launchWith s slot die marks at_ v port none

/-! ### Eligibility (06 R169, 17 R373) -/

/-- Whether every node with an edge into this one has completed. -/
def nodeReady (s : State) (g : Grid) : Bool :=
  match g.node with
  | none => true
  | some (gr, n) => match s.graphs.find? fun x => x.id == gr with
    | none => true
    | some x => x.edges.all fun e => e.2 != n || 2 ≤ x.nodes.getD e.1 2
/-- A request stands in the queue of the dispatch unit (14 R323). -/
def queueUp (s : State) (restore : Bool) (target index prio : Nat) : State :=
  let (id, s) := s.fresh
  { s with queue := s.queue ++ [⟨id, restore, target, index, prio, s.now⟩] }
/-- A request enters the queue, which is looked at. -/
def enqueue (s : State) (restore : Bool) (target index prio : Nat) : State :=
  (queueUp s restore target index prio).post s.now .dispatchPlace
/-- A grid all of whose conditions hold goes to dispatch. -/
def gridEligible (s : State) (g : Grid) : State :=
  if g.stage == .waiting && g.after.all AfterCond.sat && nodeReady s g then
    enqueue (s.modGrid g.id fun g => { g with stage := .running }) false g.id 0 g.r.prio
  else s
/-- A launch is accepted: the grid is known, and its conditions are read again at least every 1,000 ticks. -/
def addGrid (s : State) (g : Grid) : State :=
  (gridEligible { s with grids := s.grids ++ [g] } g).post (s.now + 1000) (.afterConditionRead g.id)
/-- AFTER CONDITION READ (06 R162): a read that faults leaves its condition as it stood; one that is on its way is looked at
again soon, so that a write is seen in time (06 R169). -/
def afterRead (s : State) (grid : Nat) : State :=
  match s.grid? grid with
  | none => s
  | some g =>
    if g.stage != .waiting then s
    else
      let (r, as, s) := readAfter s g.slot g.after
      let s := s.modGrid grid fun g => { g with after := as }
      let next := if r.isNone then Config.pollTicks else 1000
      gridEligible (s.post (s.now + next) (.afterConditionRead grid)) { g with after := as }

/-! ### Admission and placement (06 R168, 14 R325) -/

/-- The teams that take up a core: those that are resident, and those whose images are still written (15 R355). -/
def teamsOn (s : State) (core : Nat) : List Team :=
  (s.teams ++ s.leaving.flatMap SavedCluster.teams).filter fun m => m.core == core && !m.exited
/-- The lowest free run of n blocks of 4 KiB in a core's scratchpad (02 R48). -/
def freeRun (s : State) (core n : Nat) : Option Nat :=
  if n == 0 then some 0
  else
    let ts := teamsOn s core
    (List.range 128).find? fun a => a + n ≤ 128 && ts.all fun m => a + n ≤ m.runAt || m.runAt + m.runLen ≤ a
/-- What a team needs of a core: groups, registers, scratchpad blocks, energy, a free sequencer. -/
structure Need where
  groups : Nat
  regs : Nat
  blocks : Nat
  cost : Nat
  seq : Bool
deriving DecidableEq, Repr

def scrBlocks (r : LaunchRec) : Nat := (r.scrb + 4095) / 4096
def budget (s : State) : Nat := bits s.pwrctl 16 8
/-- Whether a core admits a team (06 R168). DESIGN CHOICE: the sequencer counts as taken while a group waits at it, also at the
instant at which the first one is granted it and its stream does not run yet (log 86). -/
def admitsTeam (s : State) (core : Nat) (n : Need) : Bool :=
  let ts := teamsOn s core
  let groups := (s.threads ++ s.leaving.flatMap SavedCluster.threads).filter fun t => t.core == core && !t.stream
  let cost (m : Team) : Nat := ((s.grid? m.grid).map fun g => g.r.cost).getD 0
  (s.core core).test == .none && ts.length < 4 && groups.length + n.groups ≤ 24
    && (groups.map Thread.allot).foldl (· + ·) 0 + n.regs ≤ 3072 && (freeRun s core n.blocks).isSome
    && (ts.map cost).foldl (· + ·) 0 + n.cost ≤ budget s && !(n.seq && ((streamOn s core).isSome || !(s.core core).seqwait.isEmpty))
/-- The cores of a rectangle by its anchor, in member order, if it lies within the die (06 R151). -/
def rectangle (core w h : Nat) : Option (List Nat) :=
  let row := core % 80 / 10
  let col := core % 10
  if row + h ≤ 8 && col + w ≤ 10 then
    some ((List.range (w * h)).map fun i => core + i / w * 10 + i % w)
  else none
/-- The first place for a cluster (14 R325). -/
def findPlace (s : State) (die : Option Nat) (w h : Nat) (needs : List Need) : Option (List Nat) :=
  let dies := match die with
    | some d => d :: ([0, 1, 2, 3].filter fun x => x != d)
    | none => [0, 1, 2, 3]
  (dies.flatMap fun d => (List.range 80).map fun i => 80 * d + i).findSome? fun c =>
    match rectangle c w h with
    | none => none
    | some cs => if (cs.zip needs).all fun p => admitsTeam s p.1 p.2 then some cs else none

/-- The launched lanes of group g of a team (06 R154). -/
def launchedLanes (r : LaunchRec) (g : Nat) : LaneMask :=
  BitVec.ofNat 96 (2 ^ (if g == r.gpt then r.lastl else 96) - 1)
/-- A group at its start (06 R151 to R157): it begins with an acquire at SPAN scope (03 R79). -/
def newGroup (r : LaunchRec) (uid team core g now : Nat) : Thread :=
  let live := launchedLanes r g
  { Thread.blank with
    uid := uid, team := team, gid := g, core := core, pc := r.kentry, allot := r.allot, launched := live, live := live,
    vregs := List.replicate r.allot (List.replicate 96 Lane.zero), acq := some true, resident := now, activeAt := now,
    readyAt := now, idle := true }.setMask live
/-- A stream at its start (06 R158, 12 R307), with the acquire it begins with: at SPAN scope or not (03 R79). -/
def newStream (uid team core : Nat) (entry : Dword) (cluster wide : Bool) (now : Nat) : Thread :=
  { Thread.blank with
    uid := uid, stream := true, cluster := cluster, team := team, core := core, pc := entry, mode := .seq,
    cc := ⟨false, false, false, false, false, false, false, false⟩, acq := some wide,
    resident := now, activeAt := now, readyAt := now }
/-- The lowest free team slot of a core. -/
def freeSlot (s : State) (core : Nat) : Nat :=
  ((List.range 4).find? fun i => (teamsOn s core).all fun m => m.slot != i).getD 0

/-- What a core holds of a context goes: translations, remote windows, prefetches (01 R35). -/
def Core.clearCtx (k : Core) (slot : Nat) : Core :=
  let rest (l : List TlbEnt) : List TlbEnt := l.filter fun e => e.slot != slot
  { k with
    tlb := rest k.tlb, itlb := rest k.itlb, ctlb := rest k.ctlb, tlb2 := rest k.tlb2
    rwc := k.rwc.filter fun r => r.1 != slot
    prefs := k.prefs.filter fun p => p.slot != slot }
/-- What the package and its cores hold of a context entry goes, with the walks and reads under way for it: the entry may hold
another context next (01 R35). -/
def dropSlot (s : State) (slot : Nat) : State :=
  { s with
    cores := s.cores.map fun k => { k.clearCtx slot with slots := k.slots.map fun x => if x == some slot then none else x }
    walks := s.walks.filter fun w => w.slot != slot
    wcache := s.wcache.filter fun w => w.slot != slot
    devReads := s.devReads.filter fun r => r.1 != slot }
/-- The context's slot of a core: the one it holds, else a free one, else that of a context with no resident team here, whose
entries go (01 R35). -/
def coreSlot (s : State) (core slot : Nat) : State :=
  let used (o : Option Nat) : Bool := (teamsOn s core).any fun m => ((s.grid? m.grid).map Grid.slot) == o
  s.modCore core fun k =>
    if k.slots.contains (some slot) then k
    else match k.slots.findIdx? fun x => x.isNone with
      | some i => { k with slots := setAt k.slots i (some slot) }
      | none => match k.slots.findIdx? fun x => !used x with
        | some i =>
          let k := match k.slots.getD i none with
            | some old => k.clearCtx old
            | none => k
          { k with slots := setAt k.slots i (some slot) }
        | none => k
/-- Start a member's team with its groups (06 R168). -/
def startTeam (s : State) (g : Grid) (cluster member team core : Nat) : State :=
  let m : Team := {
    id := team, grid := g.id, cluster := cluster, member := member, core := core, slot := freeSlot s core,
    runAt := (freeRun s core (scrBlocks g.r)).getD 0, runLen := scrBlocks g.r, scratch := [],
    marks := List.replicate 16 Watermark.idle, act := ActTable.zero, pinEnd := none, lastPinEnd := none, engine := none,
    exited := false }
  let s := coreSlot { s with teams := s.teams ++ [m] } core g.slot
  (List.range (g.r.gpt + 1)).foldl (fun (s : State) i =>
    let (uid, s) := s.fresh
    { s with threads := s.threads ++ [newGroup g.r uid team core i s.now] }) s
/-- Start a cluster on its cores, with its stream. -/
def startCluster (s : State) (g : Grid) (index : Nat) (cores : List Nat) : State :=
  let (cid, s) := s.fresh
  let first := s.seq
  let s : State := { s with seq := s.seq + cores.length }
  let members := mapFrom (fun i c => (c, first + i)) 0 cores
  let s : State := { s with clusters := s.clusters ++ [⟨cid, g.id, index, members, false⟩] }
  let s := (mapFrom (fun i (m : Nat × Nat) => (i, m)) 0 members).foldl (fun s im => startTeam s g cid im.1 im.2.2 im.2.1) s
  let s := match members with
    | (core, team) :: _ =>
      if g.r.sentry == 0 then s
      else
        let (uid, s) := s.fresh
        { s with threads := s.threads ++ [newStream uid team core g.r.sentry true true s.now] }
    | [] => s
  s.modGrid g.id fun g => { g with placed := g.placed + 1 }

/-- Effective priority (14 R323). -/
def PlaceReq.ep (q : PlaceReq) (now : Nat) : Nat := q.prio - (now - q.at_) / 1000000
/-- The order of the queue: EP, restores first, T, index, entry number (14 R323). -/
def PlaceReq.before (now : Nat) (a b : PlaceReq) : Bool :=
  let key (q : PlaceReq) : List Nat := [q.ep now, if q.restore then 0 else 1, q.at_, q.index, q.entry]
  decide (key a < key b)
def queueHead (s : State) : Option PlaceReq :=
  s.queue.foldl (fun m q => match m with
    | none => some q
    | some x => if q.before s.now x then some q else some x) none
/-- A context whose EVICT is in progress has nothing placed (14 R330). -/
def evictingCtx (s : State) (num : Nat) : Bool := bit s.evcmd 62 && bits s.evcmd 60 2 == 1 && bits s.evcmd 0 16 == num

/-- Clusters of a grid. -/
def Grid.clusters (g : Grid) : Nat := g.r.gx * g.r.gy * g.r.gz
def needOf (g : Grid) (first : Bool) : Need := ⟨g.r.gpt + 1, (g.r.gpt + 1) * g.r.allot, scrBlocks g.r, g.r.cost, first && g.r.sentry != 0⟩
/-- Place the launch at the head of the queue, if it fits: the next cluster of the grid enters then (14 R324). Of a grid that
was ended none is placed (14 R330). -/
def placeLaunch (s : State) (q : PlaceReq) : Option State :=
  match s.grid? q.target with
  | none => some { s with queue := s.queue.filter fun x => x.entry != q.entry }
  | some g =>
    let c := s.ctx g.slot
    if g.err then some { s with queue := s.queue.filter fun x => x.entry != q.entry }
    else if c.status != .loaded || evictingCtx s c.num then none
    else
      let n := g.r.cw * g.r.ch
      match findPlace s g.die g.r.cw g.r.ch ((List.range n).map fun i => needOf g (i == 0)) with
      | none => none
      | some cores =>
        let s : State := { s with queue := s.queue.filter fun x => x.entry != q.entry }
        let s := startCluster s g q.index cores
        some (if q.index + 1 < g.clusters then enqueue s false g.id (q.index + 1) g.r.prio else s)

/-! ### Completion (06 R170, R171) -/

/-- A store buffer entry with lanes of groups that a grid was ended under. -/
def SbEntry.leftBy (e : SbEntry) (g : Grid) : Bool := e.from_.any fun c => g.left.contains c.uid
/-- What a grid's implicit FENCE.SPAN waits for: its puts and sends, those of its copies among them, untracked write-backs of its
context, and, of the groups that it was ended under, store buffer entries, remote reads and atomics, and sends that wait. -/
def gridOpen (s : State) (g : Grid) : Bool :=
  (s.reqs.any fun r => !r.ended && match r.for_ with
    | .put _ k .. => k == g.id
    | .send _ k .. => k == g.id
    | .lanes u .. => g.left.contains u
    | .sendw u .. => g.left.contains u
    | _ => false) || untrackedOpen s g.slot
    || (s.cores.any fun k => k.sb.any fun e => !e.handed && e.leftBy g)
    || s.ctxs.any fun c => c.arrivals.any fun a => match a.from_ with
      | .send _ k .. | .kernel _ k => k == g.id
      | _ => false
/-- Send the store buffer entries of the groups that a grid was ended under. -/
def sendOrphans (s : State) (g : Grid) : State :=
  (List.range s.cores.length).foldl (fun s c => sbSendAll s c fun e => e.leftBy g) s

/-- A saved cluster whose image stands in memory leaves its cores: engines, copy slots, room (14 R331). An engine completes what a
team that had exited has in its queue first (12 R305). Who waited for what it held looks again. -/
def takeOff (s : State) (c : SavedCluster) : State :=
  let mine (k : Core) : Bool := k.engine.queue.isEmpty && c.teams.any fun m => k.engine.holder == some m.id
  let off (x : SavedCluster) : SavedCluster := { x with off := true, copies := x.copies.map fun k => { k with hasSlot := false } }
  let s : State := { s with
    saved := s.saved.map fun x => if x.id == c.id then off x else x
    cores := s.cores.map fun k => if mine k then { k with engine := Engine.free } else k }
  let s := c.teams.foldl (fun (s : State) m => s.post s.now (.sequencerGrant m.core)) s
  let s := (s.copies.filter fun k => c.teams.any fun m => m.core == k.core).foldl (fun (s : State) k => pokeCopy s k.id s.now) s
  ((s.post s.now (.wakeEvaluate c.id)).post s.now .dispatchRetry).wake
/-- What a grid that ended with an error has queued or saved goes, as what is resident does (14 R330, 15 R340): its groups leave
with what they have sent, its copies become ABORTED and send their interrupts (04 R107, R109), a handler group's role ends
(13 R309), its save slots are free (15 R355). -/
def dropSaved (s : State) (grid : Nat) : State :=
  let mine := s.saved.filter fun c => c.cluster.grid == grid
  let uids := mine.flatMap fun c => c.threads.map Thread.uid
  let s := (mine.filter fun c => !c.off).foldl takeOff s
  let slot := ((s.grid? grid).map Grid.slot).getD 0
  let s := if mine.isEmpty then s else (s.modCtx slot fun c => { c with
      pool := mine.foldl (fun p x => x.slots.foldl (fun p k => putBit p k.2 false) p) c.pool
      ui := if uids.any fun u => c.ui.hg == some u then { c.ui with hg := none, inh := false } else c.ui }).modGrid grid fun g =>
    { g with left := uids ++ g.left }
  let s : State := { s with
    queue := s.queue.filter fun q => !(if q.restore then mine.any fun c => c.id == q.target else q.target == grid)
    saved := s.saved.filter fun c => c.cluster.grid != grid }
  (mine.flatMap SavedCluster.copies).foldl copyInterrupt s
/-- GRID COMPLETE (06 R170). -/
def gridComplete (s : State) (grid : Nat) : State :=
  match s.grid? grid with
  | none => s
  | some g =>
    if g.stage != .running then s
    else
      let s : State := if g.err then dropSaved s grid else s
      if (g.err || g.placed == g.clusters) && !(s.clusters.any fun c => c.grid == grid)
          && !(s.saved.any fun c => c.cluster.grid == grid) && !(s.copies.any fun c => c.grid == grid) then
        (s.modGrid grid fun g => { g with stage := .fence }).post s.now (.gridCompletionActions grid)
      else s

/-- Word 0 of a completion block (06 R163). -/
def statusWord (err : Bool) (ecode : BitVec 16) : Nat := 1 + err.toNat * 2 + ecode.toNat * 2 ^ 16
/-- A node of a graph has completed (17 R373): its successors may go, or complete with ERR without running. -/
def nodeDone (s : State) (g : Grid) : State :=
  match g.node with
  | none => s
  | some (gr, n) =>
    let s : State := { s with graphs := s.graphs.map fun x =>
      if x.id == gr then { x with nodes := setAt x.nodes n (if g.err then 3 else 2) } else x }
    match s.graphs.find? fun x => x.id == gr with
    | none => s
    | some x =>
      let next := s.grids.filter fun k => k.stage == .waiting && x.edges.any fun e => e.1 == n && k.node == some (gr, e.2)
      let s := next.foldl (fun (s : State) k =>
        if g.err then (s.modGrid k.id fun k => { k with stage := .fence, err := true, ecode := 0 }).post s.now (.gridCompletionActions k.id)
        else gridEligible s k) s
      if x.nodes.all fun v => 2 ≤ v then s.post s.now (.gridCompletionActions gr) else s

/-- The fault that the implicit FENCE.SPAN of a completion reports, as ECODE: the first in the order of 11 R280; an outcome of
a cell that died comes last (log 53). -/
def completionFault (pd : Bool) (os : List PendOutcome) : Nat :=
  let any (k : EndKind) : Bool := os.any fun o => o.kind == k
  if pd then PARAPET_DENIED
  else if any .refused then REMOTE_WINDOW + 0x10 * 256
  else if any .timedOut then REMOTE_TIMEOUT + 1 * 256
  else if any .lost then HOME_LOST
  else 0
/-- One completion action; done, or to be tried again (06 R171). A fault of one is an event to the host only. DESIGN CHOICE: an
arrival on a poisoned sync word writes nothing and is reported as SYNCWORD_INVALID (log 74). -/
def completionStep (s : State) (g : Grid) : Bool × State :=
  let event (t : Trap) (s : State) : State := hostEvent s g.slot t.detail t.addr
  match g.stage with
  | .fence =>
    let s := flushUntracked (sendOrphans s g) g.slot
    if gridOpen s g then (false, s)
    else
      -- its acquire (03 R77, R79)
      let s := dropUntracked s g.slot
      let pd := (s.ctx g.slot).pdeny.isSome
      let s := if pd then clearPdeny s g.slot else s
      -- a grid that is ending with ERR = 1 discards its own
      let first := completionFault pd g.outcomes
      (true, s.modGrid g.id fun g => { g with
        stage := .status, err := g.err || first != 0, ecode := if g.err then g.ecode else BitVec.ofNat 16 first, outcomes := [] })
  | .status => match devWrite s 0 g.slot false g.r.cblk 8 (statusWord g.err g.ecode) none with
    | (.pending, s) => (false, s)
    | (r, s) =>
      let s := match r with
        | .fault t => event t s
        | _ => s
      (true, nodeDone (s.modGrid g.id fun g => { g with stage := if g.err then .done else .sync }).wake g)
  | .sync =>
    let next (s : State) : Bool × State := (true, (s.modGrid g.id fun g => { g with stage := .stamp }).wake)
    let bad (s : State) : Bool × State := next (event ⟨SYNCWORD_INVALID, 0, g.r.swaddr⟩ s)
    -- the arrival at the word as it was read, a global atomic; where the word has changed it is read again
    let arrive (v : Nat) (s : State) : Bool × State :=
      let r := syncParty v false
      let a : AtomReq := ⟨.cas, g.r.swaddr.toNat % 128, 8, BitVec.ofNat 64 v, BitVec.ofNat 64 r.1, false⟩
      match devWrite s 0 g.slot false g.r.swaddr 8 0 (some a) with
      | (.pending, s) => (false, s.modGrid g.id fun g => { g with sync := some v })
      | (.fault t, s) => next (event t s)
      | (.ok x, s) =>
        if x.p then bad s
        else if x.v != BitVec.ofNat 64 v then (false, s.modGrid g.id fun g => { g with sync := none })
        else next (if r.2 then event ⟨BARRIER_OVERRUN, 0, g.r.swaddr⟩ s else s)
    if !g.r.csw then next s
    else match g.sync with
      | some v => arrive v s
      | none => match devRead s 0 g.slot false g.r.swaddr 8 with
        | (.pending, s) => (false, s)
        | (.fault t, s) => next (event t s)
        | (.ok v psn, s) => if psn || !syncPartyOk v then bad s else arrive v s
  | .stamp =>
    let next (s : State) : Bool × State := (true, (s.modGrid g.id fun g => { g with stage := .interrupt }).wake)
    if !g.r.cts then next s
    else match devWrite s 0 g.slot false g.r.tsaddr 8 g.r.tsval.toNat none with
      | (.pending, s) => (false, s)
      | (.fault t, s) => next (event t s)
      | (.ok _, s) => next s
  | .interrupt =>
    let next (s : State) : Bool × State := (true, s.modGrid g.id fun g => { g with stage := .done })
    if !g.r.ciq then next s
    else next (kernelSend s g.slot g.id (g.r.kentry.toNat / 4 % 2 ^ 55) g.r.uiv g.r.uidata)
  | _ => (true, s)

/-- GRID COMPLETION ACTIONS (06 R171); for a graph, the status of its completion block (17 R373). -/
def completionActions (s : State) (id : Nat) : State :=
  match s.grid? id with
  | some g =>
    if g.stage == .done then { s with grids := s.grids.filter fun k => k.id != id }
    else if g.stage == .waiting || g.stage == .running then s
    else match completionStep s g with
      | (true, s) => s.post s.now (.gridCompletionActions id)
      | (false, s) => s.post (s.now + Config.pollTicks) (.gridCompletionActions id)
  | none => match s.graphs.find? fun x => x.id == id with
    | none => s
    | some x => match devWrite s 0 x.slot false x.cblk 8 (statusWord (x.nodes.any fun v => v == 3) 0) none with
      | (.pending, s) => s.post (s.now + Config.pollTicks) (.gridCompletionActions id)
      | (_, s) => { s with graphs := s.graphs.filter fun y => y.id != id }

/-! ### The launch port (06 R166) and graphs (17 R373) -/

/-- Edges form no cycle: nodes without an edge from what remains are taken away, until none is left. -/
def acyclic (edges : List (Nat × Nat)) : Nat → List Nat → Bool
  | 0, left => left.isEmpty
  | f + 1, left =>
    let rest := left.filter fun n => edges.any fun e => e.2 == n && left.contains e.1
    rest.isEmpty || (rest.length < left.length && acyclic edges f rest)

/-- Accept every node's launch, in order. -/
def graphNodes (slot root gr v : Nat) : List Nat → State → Option (Except (Trap × Dword) (List Grid)) × State
  | [], s => (some (.ok []), s)
  | n :: r, s =>
    match launchWith s slot 0 [] (BitVec.ofNat 64 (root + 64 + 64 * n)) (v / 2 ^ (512 * n) % 2 ^ 512) true (some (gr, n)) with
    | (.pending, s) | (.held _, s) => (none, s)
    | (.refused t c, s) => (some (.error (t, c)), s)
    | (.ok g, s) => match graphNodes slot root gr v r s with
      | (some (.ok gs), s) => (some (.ok (g :: gs)), s)
      | x => x

inductive PortAns where
  | ok | refused (t : Trap) (cblk : Dword) | pending
deriving DecidableEq, Repr

/-- Accept a graph: header, edges and records are read once. -/
def acceptGraph (s : State) (slot : Nat) (root : Nat) : PortAns × State :=
  let read (s : State) (a n : Nat) : DAns × State := zeroRead 0 slot (n / 128 + 2) a n s
  match read s root 64 with
  | (.pending, s) => (.pending, s)
  | (.fault t, s) => (.refused t 0, s)
  | (.ok h _, s) =>
    let f (lo len : Nat) : Nat := h / 2 ^ lo % 2 ^ len
    let nn := f 32 16
    let ne := f 48 16
    let cb : Dword := BitVec.ofNat 64 (f 128 64)
    let cblk := if bits cb 0 6 == 0 then cb else 0
    if f 0 32 != 0x47524B4E || nn == 0 || 4096 < nn || 16384 < ne || h / 2 ^ 192 != 0 || cblk == 0 then (.refused refusal cblk, s)
    else match (if ne == 0 then (.ok 0 false, s) else read s (f 64 64) (4 * ne)) with
      | (.pending, s) => (.pending, s)
      | (.fault t, s) => (.refused t cblk, s)
      | (.ok ev _, s) =>
        let edges := (List.range ne).map fun i => (ev / 2 ^ (32 * i) % 2 ^ 16, ev / 2 ^ (32 * i + 16) % 2 ^ 16)
        if edges.any (fun e => nn ≤ e.1 || nn ≤ e.2) || !acyclic edges nn (List.range nn) then (.refused refusal cblk, s)
        else match read s (root + 64) (64 * nn) with
          | (.pending, s) => (.pending, s)
          | (.fault t, s) => (.refused t cblk, s)
          | (.ok v _, s) =>
            let (gr, s) := s.fresh
            match graphNodes slot root gr v (List.range nn) s with
            | (none, s) => (.pending, s)
            | (some (.error (t, _)), s) => (.refused t cblk, s)
            | (some (.ok gs), s) =>
              let x : Graph := ⟨gr, slot, BitVec.ofNat 64 root, cblk, edges, List.replicate nn 0⟩
              (.ok, gs.foldl addGrid { s with graphs := s.graphs ++ [x] })

/-- The request at the head of a launch port is read, and judged. -/
def portJudge (s : State) (slot : Nat) (w : Dword) : PortAns × State :=
  let at_ := bits w 6 51 * 64
  if bit w 0 then acceptGraph s slot at_
  else match launchAt s slot 0 [] (BitVec.ofNat 64 at_) true with
    | (.pending, s) | (.held _, s) => (.pending, s)
    | (.refused t b, s) => (.refused t b, s)
    | (.ok g, s) => (.ok, addGrid s g)
/-- LAUNCH ACCEPT (06 R166): the oldest request of a loaded context's port. One that is refused has its status written, where its
completion block could be read, before the next is looked at (06 R163). -/
def portAccept (s : State) (slot : Nat) : State :=
  let c := s.ctx slot
  match c.status, c.lport with
  | .loaded, w :: rest =>
    let again (s : State) : State := s.post (s.now + Config.pollTicks) (.launchAccept slot)
    let next (s : State) : State :=
      ((s.modCtx slot fun c => { c with lport := rest, refusing := none }).post s.now (.launchAccept slot)).wake
    match (match c.refusing with
      | some x => (PortAns.refused x.1 x.2, s)
      | none => portJudge s slot w) with
    | (.pending, s) => again s
    | (.ok, s) => next s
    | (.refused t cblk, s) =>
      let done (s : State) : State := next (hostEvent s slot t.detail t.addr)
      if cblk == 0 then done s
      else match devWrite s 0 slot false cblk 8 (statusWord true (BitVec.ofNat 16 (t.code + t.detail * 256))) none with
        | (.pending, s) => again (s.modCtx slot fun c => { c with refusing := some (t, cblk) })
        | (_, s) => done s
  | _, _ => s

/-- A store to a launch port is performed: its storer hears of it, unless this package answers it no more (05 R138, R139). -/
def portDone (s : State) : PortFrom → State
  | .none => s
  | .req ep id => if ep != s.self && shunned s ep then s else s.say (.homeAns ep ⟨id, .ack, 0, false, false, 0⟩)
  | .write id => match s.l2w.find? fun w => w.id == id with
    | some w => l2Done s w s.now ⟨0, false⟩
    | none => s
/-- The stores that have come to a launch port, in their order (06 R166): each is performed when no command on its context is in
progress and the port has room: it takes a place in the port, or its toll check counts it as refused. -/
def portSettle (slot : Nat) : Nat → State → State
  | 0, s => s
  | n + 1, s => match (s.ctx slot).ports with
    | [] => s
    | p :: rest =>
      let c := s.ctx slot
      let next (s : State) : State := portSettle slot n (portDone (s.modCtx slot fun c => { c with ports := rest }) p.from_)
      -- a store of a cell that has died meanwhile, or of another cell where this package has isolated itself, goes (05 R138, R139)
      if p.ep != s.self && shunned s p.ep then next s
      else if ctxBusy s slot then s
      else if c.status == .unknown || bits p.w 1 5 != 0 || bits p.w 57 7 != 0 then next s
      else if 64 ≤ c.lport.length + c.launches.length then s
      else match tollPort s slot p.ep with
        | (none, s) => s
        | (some false, s) => match countDrop s slot with
          | (true, s) => next s
          | (false, s) => s
        | (some true, s) => (next (s.modCtx slot fun c => { c with lport := c.lport ++ [p.w] })).post s.now (.launchAccept slot)
/-- A store comes to LPORT (06 R166): its requests are checked and accepted in that order. -/
def portStore (s : State) (slot ep : Nat) (w : Dword) : State :=
  let s := portQueue s slot ⟨ep, w, .none⟩
  portSettle slot (s.ctx slot).ports.length s
/-- What waits to be judged at the package is looked at again: arrivals, and stores to launch ports. -/
def settleAll (s : State) : State :=
  if s.ctxs.all fun c => c.arrivals.isEmpty && c.ports.isEmpty then s
  else (List.range s.ctxs.length).foldl (fun s k =>
    if (s.ctx k).ports.isEmpty then s else portSettle k (s.ctx k).ports.length s) (uiSettleAll s)

end Sys2Proof.Machine
end

