-- ==== Sys2Proof/Machine/Ctrl.lean ====
section
/-! DEFINITION. Control (09 R226 to R243, 06 R186): ends, traps, the window, WAIT, LAUNCH, pins, special registers, branches,
fetch and signatures. -/
namespace Sys2Proof.Machine

/-! ### WAIT (09 R232 to R235) -/

/-- The fields of a parameter word that must be zero (09 R232). -/
def pairBad (p : Dword) : Bool :=
  match bits p 60 4 with
  | 0 | 4 | 5 => bits p 0 60 != 0
  | 1 => bits p 32 28 != 0
  | 2 => bits p 4 56 != 0
  | 3 | 6 => bits p 57 3 != 0
  | _ => true
/-- The checks of one pair at issue, in order (09 R233). -/
def pairCheck (s : State) (p v : SVal) : Option Trap :=
  if p.p || v.p then some poisonTrap
  else if pairBad p.v then some (hereTrap s ILLEGAL_INSN 0x07)
  else match bits p.v 60 4 with
    | 1 =>
      let a : Dword := BitVec.ofNat 64 (bits p.v 0 32)
      match scratchAddr s s.cur.team a 8 with
      | .error d => some ⟨ACCESS_VIOLATION, d, a⟩
      | .ok (_, off) => if off % 8 != 0 then some ⟨MISALIGNED, 0, a⟩ else none
    | 3 => if bits p.v 0 3 != 0 then some ⟨MISALIGNED, 0, BitVec.ofNat 64 (bits p.v 0 57)⟩ else none
    | 6 => if bits p.v 0 6 != 0 then some ⟨MISALIGNED, 0, BitVec.ofNat 64 (bits p.v 0 57)⟩ else none
    | _ => none

/-- What one condition gives: satisfied, and whether its word is homed outside the package. -/
inductive CondAns where
  | ok (sat span : Bool)
  | pending
  | fault (t : Trap)
deriving DecidableEq, Repr

/-- An earlier store or atomic of the thread to the line of an address is still to be sent, or is sent and not to be seen yet: a load
there waits (03 R74). -/
def ownOlder (s : State) (t : Thread) (a : Nat) : Bool :=
  t.olderInFlight s t.nextEntry a || t.log.any fun e => (match e.op with
    | .store _ _ | .atom _ _ => true
    | _ => false) && (lanesOf e.unsent).any fun L => (e.addrs.getD L 0).toNat / 128 == a / 128
/-- The word of a kind-3 or kind-6 condition: a load of the thread (09 R234), behind its own earlier stores; a saved thread's is
read for it by the dispatch unit (14 R333). DESIGN CHOICE: while a watermark holds the word, the condition is not satisfied, and the
WAIT's other conditions and its timeout go on (log 89). While the replay buffer of its core is full a thread sends no load (11
R268). -/
def condLoad (s : State) (t : Thread) (a : Nat) (test : Nat → Bool) : CondAns × State :=
  if t.core < s.cores.length && replayFull s t.core then (.pending, s)
  else match xlatNow s (dieOf t.core) (s.slotOf t) (BitVec.ofNat 64 a) .read false with
  | (.pending, s) => (.pending, s)
  | (.fault x, s) => (.fault x, s)
  | (.ok pa _, s) => match heldBy (s.marksOf t.team) 0 0 a 8 with
    | .wait => (.ok false false, s)
    | .aborted b => (.fault ⟨COPY_ABORTED, 0, BitVec.ofNat 64 b⟩, s)
    | .free =>
      if t.core < s.cores.length && ownOlder s t a then (.pending, s)
      else match coreRead s t.core (s.slotOf t) false a 8 with
        | (.pending, s) => (.pending, s)
        | (.fault x, s) => (.fault x, s)
        | (.ok v psn, s) => if psn then (.fault poisonTrap, s) else (.ok (test v) (!isLocal s (pa / 128)), s)
/-- Evaluate one condition of a thread. -/
def condEval (s : State) (t : Thread) (all : Bool) (p v : Dword) : CondAns × State :=
  match bits p 60 4 with
  | 0 => (.ok all false, s)
  | 1 => match scratchAddr s t.team (BitVec.ofNat 64 (bits p 0 32)) 8 with
    | .error _ => (.ok false false, s)
    | .ok (team, off) =>
      let m := match s.team? team with
        | some m => if m.exited then [] else m.scratch
        | none => []
      (.ok (syncGen (Mem.load m off 8) != bits v 0 16) false, s)
  | 2 =>
    let w := (s.marksOf t.team).getD (bits p 0 4) Watermark.idle
    if w.state == 4 then (.fault ⟨COPY_ABORTED, 0, BitVec.ofNat 64 w.mark⟩, s)
    else (.ok (w.state == 0 || w.state == 3 || v.toNat ≤ w.mark) false, s)
  | 3 => condLoad s t (bits p 0 57) fun x => x != v.toNat
  | 4 =>
    let u := (s.ctxOf t).ui
    (.ok (u.pend &&& u.mask &&& (if v == 0 then BitVec.allOnes 64 else v) != 0) false, s)
  | 5 => (.ok (decide (v.toNat ≤ s.now)) false, s)
  | _ => condLoad s t (bits p 0 57) fun x => x % 2 == 1
/-- Every condition: none where a load is on its way. -/
def condAll (t : Thread) (all : Bool) : List (Dword × Dword) → State → Option (Except Trap (List (Bool × Bool))) × State
  | [], s => (some (.ok []), s)
  | (p, v) :: r, s => match condEval s t all p v with
    | (.pending, s) => (none, s)
    | (.fault x, s) => (some (.error x), s)
    | (.ok a b, s) => match condAll t all r s with
      | (some (.ok xs), s) => (some (.ok ((a, b) :: xs)), s)
      | x => x
def setTo (s : State) (b : Bool) : State := s.modCur fun t => { t with cc := { t.cc with tmo := b } }
/-- The ticks until a WAIT has to look again: 64, what is left of its timeout, or until a time that it waits for (09 R233, R234). -/
def waitNext (s : State) (pairs : List (Dword × Dword)) (left : Nat) : Nat :=
  pairs.foldl (fun n p => if bits p.1 60 4 == 5 && s.now < p.2.toNat then min n (p.2.toNat - s.now) else n) (min 64 left)
/-- One evaluation of a WAIT with some ticks left (09 R233): its end, with an acquire that is complete before the next instruction
issues, its timeout once the tick in which it passes is over, or on. -/
def waitRun (s : State) (pairs : List (Dword × Dword)) (all : Bool) (left : Nat) (over_ : Bool) : Res :=
  match condAll s.cur all pairs s with
  | (none, s) => .stall s
  | (some (.error x), s) => .trap s x
  | (some (.ok xs), s) =>
    if (if all then xs.all Prod.fst else xs.any Prod.fst) then
      let wide := xs.any fun x => x.1 && x.2
      .ok (acquireStep ((setTo s false).modCur fun t => { t with acq := some (wide || t.acq == some true) }))
    else if left == 0 then (if over_ then .ok (setTo s true) else .wait s (.wait pairs all 0 s.now))
    else
      let forever := left == 2 ^ 64 - 1
      let uid := s.cur.uid
      let s := s.post (s.now + waitNext s pairs left) (.waitEvaluate uid)
      .wait (if forever then s else s.post (s.now + left) (.waitTimeout uid)) (.wait pairs all left s.now)
/-- A waiting WAIT looks again; a tick resident counts against its timeout (09 R235). -/
def waitAgain (s : State) (pairs : List (Dword × Dword)) (all : Bool) (left last : Nat) (over_ : Bool) : Res :=
  waitRun s pairs all (if left == 2 ^ 64 - 1 then left else left - (s.now - last)) over_

/-! ### Pins (09 R238) -/

def pinOn (s : State) (team : Nat) : State :=
  match s.team? team with
  | none => s
  | some m =>
    if m.pinEnd.isSome || (match m.lastPinEnd with
      | some e => s.now < e + 100000
      | none => false) then s
    else (s.modTeam team fun m => { m with pinEnd := some (s.now + 100000) }).post (s.now + 100000) (.pinExpiry team)

/-! ### Special registers (09 R240, 13 R308) -/

def addrField (x : Dword) : Dword := x &&& 0x01FFFFFFFFFFFFFC
def UiRegs.hgWord (u : UiRegs) (uid : Nat) : Dword :=
  BitVec.ofNat 64 (u.core * 2 ^ 16 + u.group * 2 ^ 8 + u.team * 2 ^ 4 + u.inh.toNat * 4 + (u.hg == some uid).toNat * 2 + u.hg.isSome.toNat)
/-- The value that SRD reads into a scalar. -/
def readSpecial (s : State) (t : Thread) (i : SpecialReg) : Dword :=
  let g := s.gridOf t
  let r (f : LaunchRec → Nat) : Dword := BitVec.ofNat 64 ((g.map fun g => f g.r).getD 0)
  let m := s.team? t.team
  let idx := ((s.clusterOf t.team).map Cluster.index).getD 0
  let gx := ((g.map fun g => g.r.gx).getD 1)
  let gy := ((g.map fun g => g.r.gy).getD 1)
  let c := s.ctxOf t
  match i with
  | .laneid => BitVec.ofNat 64 ((lowest t.mask).getD 0)
  | .groupid => BitVec.ofNat 64 t.gid
  | .memberid => BitVec.ofNat 64 ((m.map Team.member).getD 0)
  | .clx => BitVec.ofNat 64 (idx % gx)
  | .cly => BitVec.ofNat 64 (idx / gx % gy)
  | .clz => BitVec.ofNat 64 (idx / (gx * gy))
  | .gridx => r LaunchRec.gx
  | .gridy => r LaunchRec.gy
  | .gridz => r LaunchRec.gz
  | .teamshape => r fun r => (r.gpt + 1) * 2 ^ 16 + r.lastl * 2 ^ 8 + r.ch * 16 + r.cw
  | .live k => (maskWord t.live k.val).zeroExtend 64
  | .coreid => BitVec.ofNat 64 (spanId s * 2 ^ 48 + cellOf s s.self * 2 ^ 32 + s.self * 2 ^ 16 + t.core)
  | .now => BitVec.ofNat 64 s.now
  | .lct => BitVec.ofNat 64 t.lct
  | .ccr => t.cc.word
  | .fpcr => t.rm.zeroExtend 64
  | .winbase => BitVec.ofNat 64 t.wbase
  | .allot => BitVec.ofNat 64 t.allot
  | .sig => t.sig.zeroExtend 64
  | .pinstat => match m.bind Team.pinEnd with
    | some e => BitVec.ofNat 64 ((e - s.now) * 2 ^ 8 + 1)
    | none => 0
  | .param => (g.map fun g => g.r.param).getD 0
  | .lrec => (g.map Grid.lrec).getD 0
  | .lhandle => (g.map fun g => g.r.cblk).getD 0
  | .cpyseq => c.cpyseq.getD t.core 0
  | .launchinfo => r fun r => r.lr.toNat * 2 ^ 8 + r.prio * 16 + r.eclass
  | .trapcode => t.trapcode
  | .trappc => t.trappc
  | .trapaddr => t.trapaddr
  | .trapmask k => (t.trapmask.getD k.val 0).zeroExtend 64
  | .uipend => c.ui.pend
  | .uimask => c.ui.mask
  | .uihg => c.ui.hgWord t.uid
  | .uivec => c.ui.vec
  | .uipc => c.ui.pc
  | .uisavm k => (c.ui.savm.getD k.val 0).zeroExtend 64
  | .uideny => BitVec.ofNat 64 (c.ui.den.toNat * 2 ^ 16 + c.ui.drops.toNat)
  | .uicnt n => (c.ui.cnt.getD n.val 0).zeroExtend 64
  | .uidata n => (c.ui.data.getD n.val 0).zeroExtend 64
  | .uirule n => (c.ui.rule.getD n.val 0).zeroExtend 64

/-- The modes in which a register may be named: user, supervisor, stream (09 R240). -/
def specialModes (i : SpecialReg) : Bool × Bool × Bool :=
  match i with
  | .laneid | .fpcr | .uipend | .uimask | .uihg | .uivec | .uipc | .uisavm _ | .uideny | .uicnt _ | .uidata _ | .uirule _ =>
    (true, false, false)
  | .live _ | .winbase | .allot | .pinstat => (true, true, false)
  | .trapcode | .trappc | .trapaddr | .trapmask _ => (false, true, false)
  | _ => (true, true, true)
/-- Whether SWR may name a register. -/
def specialWritable (i : SpecialReg) : Bool :=
  match i with
  | .ccr | .fpcr | .trappc | .trapmask _ | .uimask | .uihg | .uivec | .uipc | .uisavm _ | .uideny | .uicnt _ | .uidata _
  | .uirule _ => true
  | _ => false
/-- The trap of a register that the mode may not name (09 R239). -/
def specialTrap (s : State) (i : SpecialReg) : Option Trap :=
  (modeReject (specialModes i) s.cur.decodeMode).map fun r => rejectTrap s.cur.pc r
/-- A write of UIHG.V (13 R309). -/
def writeUihg (s : State) (t : Thread) (v : Bool) (u : UiRegs) : UiRegs :=
  if v then
    if u.inh && u.hg != some t.uid && u.hg.isSome then u
    else { u with hg := some t.uid, core := t.core, group := t.gid, team := ((s.team? t.team).map Team.slot).getD 0
                  inh := u.inh && u.hg == some t.uid }
  else if u.hg == some t.uid then { u with hg := none, inh := false } else u
/-- SWR of a register that may be written. -/
def writeSpecial (s : State) (i : SpecialReg) (x : Dword) : State :=
  let t := s.cur
  let ui (f : UiRegs → UiRegs) : State := lookSaved (s.modCtx (s.slotOf t) fun c => { c with ui := f c.ui }).wake (s.slotOf t)
  match i with
  | .ccr => s.modCur fun t => { t with cc := t.cc.ofWord x }
  | .fpcr => s.modCur fun t => { t with rm := x.truncate 2 }
  | .trappc => s.modCur fun t => { t with trappc := x }
  | .trapmask k => s.modCur fun t => { t with trapmask := setAt t.trapmask k.val (x.truncate 32) }
  | .uimask => ui fun u => { u with mask := x }
  | .uihg => ui (writeUihg s t (bit x 0))
  | .uivec => ui fun u => { u with vec := addrField x }
  | .uipc => ui fun u => { u with pc := addrField x }
  | .uisavm k => ui fun u => { u with savm := setAt u.savm k.val (x.truncate 32) }
  | .uideny => ui fun u => { u with den := u.den && !bit x 16, drops := x.truncate 16 }
  | .uicnt n => ui fun u => { u with cnt := setAt u.cnt n.val (x.truncate 16) }
  | .uidata n => ui fun u => { u with data := setAt u.data n.val (x.truncate 32) }
  | .uirule n => ui fun u => { u with rule := setAt u.rule n.val ((x &&& 0x87).truncate 8) }
  | _ => s

/-! ### Branches -/

/-- The target of a branch (07 R173). -/
def branchTo (s : State) (o : BitVec 22) : Dword := s.cur.pc + (sext64 22 o.toNat <<< 2)

/-- 09 R226. -/
def execNop (s : State) : Host.Outcome State Fault Refusal :=
  issue anyMode [] s fun s =>
    .ok s

/-- 09 R227. -/
def execExit (s : State) : Host.Outcome State Fault Refusal :=
  issue userSeq [] s fun s =>
    exitThread s

/-- 09 R228. -/
def execLexit (s : State) : Host.Outcome State Fault Refusal :=
  issue userOnly [] s fun s =>
    let t := s.cur
    let live := t.live &&& ~~~t.mask
    if live == 0 then exitThread s
    else .ok (s.modCur fun t => { t with live := live }.setMask 0)

/-- 09 R230: it leaves the active set and is at once ready again -/
def execYield (s : State) : Host.Outcome State Fault Refusal :=
  issue userSeq [] s fun s =>
    .done ((conclude s (.ok s)).modCur fun t => { t with wait := .yield, active := false, readyAt := s.now })

/-- 09 R229. -/
def execSys (s : State) : Host.Outcome State Fault Refusal :=
  issue userOnly [] s fun s =>
    if s.cur.mask == 0 then .ok s else .trapNext s ⟨SYS, 0, 0⟩

/-- 09 R229. -/
def execBrk (s : State) : Host.Outcome State Fault Refusal :=
  issue userSup [] s fun s =>
    .trap s (hereTrap s BRK 0)

/-- 09 R242. -/
def execSigrst (s : State) : Host.Outcome State Fault Refusal :=
  issue anyMode [] s fun s =>
    .okSig (s.modCur fun t => { t with sig := sigStart })

/-- 09 R241. -/
def execFetchb (s : State) : Host.Outcome State Fault Refusal :=
  issue anyMode [] s fun s =>
    if s.cur.liveLog.any fun e => e.op == .icinv && e.unperformed != 0 then .stall s
    else .ok (s.modCur fun t => { t with fetched := none })

/-- 09 R231. -/
def execWin (n : Fin 16) (s : State) : Host.Outcome State Fault Refusal :=
  issue userOnly [] s fun s =>
    .ok (s.modCur fun t => { t with wbase := 16 * n.val })

/-- 09 R233. -/
def execWait (d : SReg) (a : SReg) (n : Fin 4) (all : Bool) (s : State) : Host.Outcome State Fault Refusal :=
  issue userSeq [rSn d (2 * (n.val + 1)), rS a] s fun s =>
    let t := s.cur
    let k := n.val + 1
    let pairs := (List.range k).map fun i => (t.getRun d (2 * i), t.getRun d (2 * i + 1))
    match pairs.findSome? fun p => pairCheck s p.1 p.2 with
    | some x => .trap s x
    | none =>
      let left := t.getS a
      if left.p then .trap s poisonTrap
      else waitRun s (pairs.map fun p => (p.1.v, p.2.v)) all left.v.toNat true

/-- 09 R236. -/
def execWaitc (s : State) : Host.Outcome State Fault Refusal :=
  issue userOnly [] s fun s =>
    let s := sendMine s
    if s.cur.releasedWaitc s then .ok s else .stall s

/-- A LAUNCH whose release is complete (09 R237): it waits where 64 requests are before it, and for the LAUNCHes whose releases
completed before its own; then it is accepted or refused. -/
def launchGo (s : State) (d : SReg) (lrec : Dword) : Res :=
  let t := s.cur
  let slot := s.slotOf t
  let c := s.ctx slot
  let before := (c.launches.findIdx? fun u => u == t.uid).getD 0
  let leaves (s : State) : State :=
    (s.modCtx slot fun c => { c with launches := c.launches.filter fun u => u != t.uid }).wake
  if 64 ≤ c.lport.length + c.ports.length + before then .wait s .launch
  else if before != 0 || replayFull s t.core then .stall s
  else match launchAt s slot (dieOf t.core) (s.marksOf t.team) lrec false with
    | (.pending, s) => .stall s
    | (.held w, s) => .wait s (.watermark (((s.team? t.team).map Team.member).getD 0) w)
    | (.refused f _, s) => .trap (leaves s) f
    | (.ok n, s) => putScalars (addGrid (leaves s) n) d.val [⟨n.r.cblk, false⟩]
/-- 09 R237. -/
def execLaunch (d : SReg) (a : SReg) (s : State) : Host.Outcome State Fault Refusal :=
  issue userOnly [wS d, rS a] s fun s =>
    let t := s.cur
    let x := t.getS a
    let g := s.gridOf t
    let slot := s.slotOf t
    if x.p then .trap s poisonTrap
    else if bits x.v 0 6 != 0 then .trap s ⟨MISALIGNED, 0, x.v⟩
    else if !((g.map fun g => g.r.lr || g.port).getD false) then .trap s (hereTrap s PRIV_VIOLATION 0)
    else if (s.ctx slot).launches.contains t.uid then launchGo s d x.v
    else match release .span s with
      | (false, s) => .stall s
      | (true, s) => match (s.ctx slot).pdeny with
        | some line => .trap (clearPdeny s slot) ⟨PARAPET_DENIED, 0, BitVec.ofNat 64 (line * 128)⟩
        | none => launchGo (s.modCtx slot fun c => { c with launches := c.launches ++ [t.uid] }) d x.v

/-- 09 R239. -/
def execSrd (d : XOpnd) (i : SpecialReg) (s : State) : Host.Outcome State Fault Refusal :=
  issue anyMode [wX d] s fun s =>
    match specialTrap s i with
    | some x => .trap s x
    | none => match d with
      | .s r => putScalars s r.val [⟨readSpecial s s.cur i, false⟩]
      | .v r =>
        if s.cur.decodeMode != .user then .trap s (hereTrap s ILLEGAL_INSN 0x04)
        else
          let x := readSpecial s s.cur i
          let lane (L : Nat) : Lane := match i with
            | .laneid => ⟨BitVec.ofNat 32 L, false⟩
            | _ => ⟨x.truncate 32, false⟩
          .ok (s.modCur fun t => t.putV r lane)

/-- 09 R239. -/
def execSwr (i : SpecialReg) (d : SReg) (s : State) : Host.Outcome State Fault Refusal :=
  issue anyMode [rS d] s fun s =>
    if !specialWritable i then .trap s (hereTrap s ILLEGAL_INSN 0)
    else match specialTrap s i with
      | some x => .trap s x
      | none =>
        let x := s.cur.getS d
        if x.p then .trap s poisonTrap else .ok (writeSpecial s i x.v)

/-- 09 R238. -/
def execPinon (s : State) : Host.Outcome State Fault Refusal :=
  issue userOnly [] s fun s =>
    .ok (pinOn s s.cur.team)

/-- 09 R238. -/
def execPinoff (s : State) : Host.Outcome State Fault Refusal :=
  issue userOnly [] s fun s =>
    .ok (unpin s s.cur.team)

/-- 09 R222. -/
def execJr (a : SReg) (s : State) : Host.Outcome State Fault Refusal :=
  issue anyMode [rS a] s fun s =>
    let x := s.cur.getS a
    if x.p then .trap s poisonTrap
    else if bits x.v 0 2 != 0 then .trap s ⟨MISALIGNED, 0, x.v⟩
    else .jump s x.v

/-- 09 R222. -/
def execJlr (d : SReg) (a : SReg) (s : State) : Host.Outcome State Fault Refusal :=
  issue anyMode [wS d, rS a] s fun s =>
    let x := s.cur.getS a
    if x.p then .trap s poisonTrap
    else if bits x.v 0 2 != 0 then .trap s ⟨MISALIGNED, 0, x.v⟩
    else match s.cur.putRun d.val [⟨s.cur.pc + 4, false⟩] with
      | some t => .jump { s with cur := t } x.v
      | none => .stall s

/-- 09 R221. -/
def execBr (c : Cond) (o : BitVec 22) (s : State) : Host.Outcome State Fault Refusal :=
  issue anyMode [] s fun s =>
    if s.cur.cc.holds c then .jump s (branchTo s o) else .ok s

/-- 09 R221. -/
def execBl (c : Cond) (o : BitVec 22) (s : State) : Host.Outcome State Fault Refusal :=
  issue anyMode [wS 28] s fun s =>
    if s.cur.cc.holds c then
      match s.cur.putRun 28 [⟨s.cur.pc + 4, false⟩] with
      | some t => .jump { s with cur := t } (branchTo s o)
      | none => .stall s
    else .ok s

/-- 09 R243. -/
def execSigchk (i : BitVec 20) (s : State) : Host.Outcome State Fault Refusal :=
  issue anyMode [] s fun s =>
    let c := bits (s.cur.sig ^^^ 0xFFFFFFFF) 0 20
    let s' := s.modCur fun t => { t with sig := sigStart }
    if c == i.toNat then .okSig s'
    else if s.cur.liveLog.any fun e => e.unperformed != 0 then .stall s
    else
      let t := s.cur
      .trapSig (rasLog (rasCount s' 0 8) 5 (s.slotOf t) t.core) ⟨SIGNATURE_MISMATCH, 0, BitVec.ofNat 64 c⟩

end Sys2Proof.Machine
end

