-- ==== Sys2Proof/Machine/Matrix.lean ====
section
/-! DEFINITION. The matrix engine (12 R294 to R307, 08 R211, R212): its elements and scales, MMA and MZERO, rows, and SEQGO. -/
namespace Sys2Proof.Machine

/-! ### Formats (12 R296, R297) -/

def isBlockCode (f : Nat) : Bool := 8 ≤ f
/-- K and cycles of a legal combination of AFMT, BFMT and ACC; the detail of MATRIX_OPERAND otherwise (12 R297, R300). -/
def mmaShape (f : Dword) : Except Nat (Nat × Nat) :=
  let a := bits f 0 4
  let b := bits f 4 4
  let acc := bits f 14 2
  let known (x : Nat) : Bool := x != 7 && x < 12
  let four := (a != 0xB && (bit f 12 || bits f 8 2 != 0)) || (b != 0xB && (bit f 13 || bits f 10 2 != 0))
  let eight (x : Nat) : Bool := x == 2 || x == 3 || x == 8 || x == 9
  let combo : Option (Nat × Nat × Nat) :=
    if a == b && a < 2 then some (0, 128, 32)
    else if eight a && eight b then some (0, 256, 32)
    else if a == 4 && b == 4 then some (1, 256, 32)
    else if a == 0xA && b == 0xA then some (0, 320, 40)
    else if a == 0xB && b == 0xB then some (0, 512, 32)
    else if a == 5 && b == 5 then some (0, 64, 64)
    else if a == 6 && b == 6 then some (2, 32, 256)
    else none
  if bits f 16 48 != 0 || !known a || !known b || acc == 3 then .error 1
  else match combo with
    | none => .error 2
    | some (k, n, c) => if four then .error 2 else if k != acc then .error 3 else .ok (n, c)
/-- The cycles of an operation of a queue (12 R297, R301). DESIGN CHOICE: the model counts a core cycle as one tick (log 2). -/
def MatOp.cycles (o : MatOp) : Nat :=
  if o.zero then 16 else match mmaShape o.f with
    | .ok (_, c) => c
    | .error _ => 32

/-! ### Elements (12 R298) -/

/-- A four-bit code of a type (08 R203). -/
def fourBit (type code : Nat) : FVal :=
  let m := code % 8
  let neg := 8 ≤ code
  let steps := [0, 1, 2, 3, 4, 6, 8, 12].getD m 0
  match type with
  | 0 => FVal.ofInt (sextInt 4 code)
  | 1 => .fin neg steps (-1)
  | 2 => .fin neg (if m == 0 then 0 else 2 ^ (m - 1)) (-3)
  | _ => .fin neg steps 0
/-- Whether a byte range of a tile buffer meets a word with P = 1 (12 R294). -/
def Engine.tileBad (e : Engine) (tb o n : Nat) : Bool :=
  let a := tb * 0x4400 + o
  (List.range ((a % 4 + n + 3) / 4)).any fun i => bit e.tileP (a / 4 + i)
def Engine.tileGet (e : Engine) (tb o n : Nat) : Nat := Mem.load e.tiles (tb * 0x4400 + o) n
/-- The floating-point format of an unblocked code, or of a block's codes. -/
def codeFmt (f : Nat) : Fmt :=
  match f with
  | 0 => bf16
  | 1 => f16
  | 2 | 8 => e4m3
  | 3 | 9 => e5m2
  | 5 => f32
  | 6 => f64
  | _ => e3m2
/-- Element k of a row, before its scale, and its four-bit type for a four-bit block. -/
def Engine.elem (e : Engine) (f tb row type k : Nat) : FIn :=
  let at_ (o n : Nat) : Nat × Bool := (e.tileGet tb (row * 256 + o) n, e.tileBad tb (row * 256 + o) n)
  match f with
  | 4 => let x := at_ k 1; ⟨x.1, FVal.ofInt (sextInt 8 x.1), x.2⟩
  | 0xA =>
    let b := k / 32
    let i := k % 32
    let w := e.tileGet tb (row * 256 + 24 * b) 24 / 2 ^ (6 * i) % 64
    let lo := 24 * b + 6 * i / 8
    let hi := 24 * b + (6 * i + 5) / 8
    ⟨w, e3m2.value w, e.tileBad tb (row * 256 + lo) (hi - lo + 1)⟩
  | 0xB =>
    let x := at_ (16 * (k / 32) + k % 32 / 2) 1
    let c := x.1 / 16 ^ (k % 2) % 16
    ⟨c, fourBit type c, x.2⟩
  | 8 | 9 => let x := at_ k 1; ⟨x.1, (codeFmt f).value x.1, x.2⟩
  | _ =>
    let n := (codeFmt f).width / 8
    let x := at_ (n * k) n
    (codeFmt f).read x.1 x.2
/-- The scale byte in a slot of a row (08 R204): its exponent, TYPE, and whether it poisons its block. -/
def Engine.scale (e : Engine) (f tb row slot : Nat) : Int × Nat × Bool :=
  if !isBlockCode f then (0, 0, false)
  else
    let o := 0x4000 + row * 16 + slot
    let x := e.tileGet tb o 1
    (Int.ofNat (x % 64) - 32, x / 64, x == 0x3F || (f != 0xB && 64 ≤ x) || e.tileBad tb o 1)

/-! ### One output element -/

/-- floor(log2) of a non-zero finite magnitude. -/
def FVal.log : FVal → Option Int
  | .fin _ m e => if m == 0 then none else some (Int.ofNat m.log2 + e)
  | _ => none
/-- sign(t) × floor(|t| / 2^g), a count of 2^g (08 R211 step 3). -/
def truncTo (g : Int) : FVal → Int
  | .fin neg m e =>
    let v : Int := if g ≤ e then Int.ofNat (m * 2 ^ (e - g).toNat) else Int.ofNat (m / 2 ^ (g - e).toNat)
    if neg then -v else v
  | _ => 0
def maxInt? (xs : List (Option Int)) : Option Int :=
  xs.foldl (fun m x => match m, x with
    | none, y => y
    | some a, some b => some (max a b)
    | some a, none => some a) none
/-- The update of one FP32 element from its products (08 R211): `ins` are the elements read. -/
def mmaSum (ins : List FIn) (bad : Bool) (ts : List FVal) (eB : Int) (ac : FIn) : Nat × Bool × Ev :=
  if bad || ac.p || ins.any FIn.p then (f32.poisonBits, true, Ev.none)
  else
    let infs := ((ac.v :: ts).filter FVal.isInf).map FVal.neg?
    let all := ac :: ins
    if ac.v.isNan || ts.any FVal.isNan || (infs.any id && infs.any fun b => !b) then f32.op RNE all .nan
    else match infs with
      | b :: _ => f32.op RNE all (.inf b)
      | [] =>
        let S : FVal := match maxInt? ((ac.v.log.map fun x => x - eB) :: ts.map FVal.log) with
          | none => .fin false 0 0
          | some E =>
            let n := (ts.map (truncTo (E - 60))).foldl (fun a x => a + x) 0
            .fin (decide (n < 0)) n.natAbs (E - 60 + eB)
        f32.op RNE all (fsum RNE [ac.v, S])

/-- The accumulator element e of ac d: bits and P. -/
def Engine.accGet (e : Engine) (d i : Nat) : Nat × Bool := (Mem.load e.acc (d * 0x4000 + 4 * i) 4, bit e.accP (d * 4096 + i))
def Engine.accPut (e : Engine) (d i v : Nat) (p : Bool) : Engine :=
  { e with acc := Mem.store e.acc (d * 0x4000 + 4 * i) 4 v, accP := putBit e.accP (d * 4096 + i) p }
/-- The four-bit type of a block: fixed by the format word, or of its scale byte (12 R298). -/
def typeOf (f : Dword) (fixed field : Nat) (t : Nat) : Nat := if bit f fixed then bits f field 2 else t

/-- The new value of one output element: bits, P, events (08 R211, R212). -/
def mmaElem (e : Engine) (o : MatOp) (k i j : Nat) : Nat × Bool × Ev :=
  let fa := bits o.f 0 4
  let fb := bits o.f 4 4
  let n := 64 * i + j
  let sb := e.scale fb o.b j 0
  let tb := typeOf o.f 13 10 sb.2.1
  let A (x : Nat) : FIn :=
    let s := e.scale fa o.a i (x / 32)
    let r := e.elem fa o.a i (typeOf o.f 12 8 s.2.1) x
    ⟨r.bits, r.v.scale s.1, r.p || s.2.2⟩
  let B (x : Nat) : FIn := e.elem fb o.b j tb x
  let ks := List.range k
  match bits o.f 14 2 with
  | 1 =>
    let ac := e.accGet o.d n
    if ac.2 || ks.any fun x => (A x).p || (B x).p then (0, true, Ev.none)
    else
      let sum := (ks.map fun x => sextInt 8 (A x).bits * sextInt 8 (B x).bits).foldl (fun a x => a + x) 0
      ((Int.ofNat ac.1 + sum).emod (2 ^ 32) |>.toNat, false, Ev.none)
  | 2 =>
    let lo := e.accGet o.d n
    let hi := e.accGet (o.d + 1) n
    let step (acc : Nat × Bool × Ev) (x : Nat) : Nat × Bool × Ev :=
      if acc.2.1 then (f64.poisonBits, true, acc.2.2)
      else
        let c := f64.read acc.1 false
        let r := f64.op RNE [A x, B x, c] (fsum RNE [(A x).v.mul (B x).v, c.v])
        (r.1, r.2.1, acc.2.2.add r.2.2)
    ks.foldl step (lo.1 + hi.1 * 2 ^ 32, lo.2 || hi.2, Ev.none)
  | _ =>
    let ac := e.accGet o.d n
    mmaSum (ks.flatMap fun x => [A x, B x]) sb.2.2 (ks.map fun x => (A x).v.mul (B x).v) sb.1 (f32.read ac.1 ac.2)
/-- The perturbation of an element after its update (12 R304). -/
def perturb (acc : Nat) (x : Nat × Bool × Ev) (v : Dword) : Nat × Bool × Ev :=
  if x.2.1 then x
  else
    let add (f : Fmt) (w : Nat) : Nat × Bool × Ev :=
      let a := f.read x.1 false
      let b := f.read w false
      let r := f.op RNE [a, b] (fsum RNE [a.v, b.v])
      (r.1, r.2.1, x.2.2.add r.2.2)
    match acc with
    | 0 => add f32 (v.toNat % 2 ^ 32)
    | 1 => ((x.1 + v.toNat) % 2 ^ 32, false, x.2.2)
    | _ => add f64 v.toNat

/-- Apply an operation to an engine; the events of an MMA (12 R301). -/
def Engine.apply (e : Engine) (o : MatOp) : Engine × Ev :=
  let elems := List.range 4096
  if o.zero then (elems.foldl (fun e i => e.accPut o.d i 0 false) e, Ev.none)
  else match mmaShape o.f with
    | .error _ => (e, Ev.none)
    | .ok (k, _) =>
      let acc := bits o.f 14 2
      elems.foldl (fun (r : Engine × Ev) n =>
        let x := mmaElem e o k (n / 64) (n % 64)
        let x := match o.pert with
          | some (i, v) => if i == n then perturb acc x v else x
          | none => x
        let r1 := r.1.accPut o.d n (x.1 % 2 ^ 32) x.2.1
        (if acc == 2 then r1.accPut (o.d + 1) n (x.1 / 2 ^ 32) x.2.1 else r1, r.2.add x.2.2)) (e, Ev.none)

/-- MATRIX OP COMPLETE (12 R301): the head of a queue is applied and leaves; the next begins. -/
def matrixComplete (s : State) (core : Nat) : State :=
  let e := (s.core core).engine
  match e.queue with
  | [] => s
  | o :: rest =>
    let (e', ev) := e.apply o
    let s := s.modCore core fun k => { k with engine := { e' with queue := rest } }
    let s := if o.zero then s else countFor s o.slot o.kentry (if bits o.f 14 2 == 2 then 0 else 1) ev
    let s := match rest with
      | n :: _ => s.post (s.now + n.cycles) (.matrixOpComplete core)
      | [] => match e.holder with
        -- the engine of a team that is being saved keeps its state until it stands in memory (12 R295)
        | some team =>
          let saving := s.leaving.any fun c => c.teams.any fun m => m.id == team && !m.exited
          if ((s.team? team).map Team.exited).getD (!saving) then releaseEngine s core team else s
        | none => s
    s.wake

/-! ### Issue (12 R299, R300) -/

/-- The teams on whose cores an operation of the thread is applied. -/
def mmaTeams (s : State) (local_ : Bool) : List Nat :=
  let t := s.cur
  if t.stream && t.cluster && !local_ then
    (((s.clusterOf t.team).map fun c => c.members.map Prod.snd).getD [t.team]).filter fun m =>
      !(((s.team? m).map Team.exited).getD true)
  else [t.team]
/-- A watermark of a team on a tile buffer whose landing is not complete (04 R110). -/
def tileMark (s : State) (team a b : Nat) (aborted : Bool) : Option (Nat × Watermark) :=
  (mapFrom (fun i w => (i, w)) 0 (s.marksOf team)).find? fun p =>
    let w := p.2
    w.state != 0 && w.space == 2 && (w.tb.toNat == a || w.tb.toNat == b) && w.mark < w.hi && (w.state == 4) == aborted
def teamCore (s : State) (team : Nat) : Nat := ((s.team? team).map Team.core).getD 0
def teamMember (s : State) (team : Nat) : Nat := ((s.team? team).map Team.member).getD 0
/-- Send an operation to every target engine at one cycle (12 R300). -/
def mmaSend (s : State) (teams : List Nat) (zero : Bool) (d a b : Nat) : Res :=
  let t := s.cur
  if teams.any fun m => 8 ≤ (s.core (teamCore s m)).engine.queue.length then .stall s
  else
    let (id, s) := s.fresh
    let kentry := ((s.gridOf t).map fun g => g.r.kentry).getD 0
    let s := teams.foldl (fun (s : State) m =>
      let core := teamCore s m
      let pert : Option (Nat × Dword) := match t.mpert with
        | some (sel, v) =>
          let k := bits sel 16 5
          if !zero && (if k == 31 then core == t.core else k == teamMember s m) then some (bits sel 0 12, v) else none
        | none => none
      let o : MatOp := ⟨id, t.uid, zero, t.mfw, d, a, b, pert, s.slotOf t, kentry⟩
      let idle := (s.core core).engine.queue.isEmpty
      let s := s.modCore core fun k => { k with engine := { k.engine with queue := k.engine.queue ++ [o] } }
      if idle then s.post (s.now + o.cycles) (.matrixOpComplete core) else s) s
    .ok (if zero then s else s.modCur fun t => { t with mpert := none })
/-- MMA, MMA.L and MZERO: the checks, claims and waits of every target core, all in one cycle (12 R300). An aborted watermark
of a core whose claim is granted ends the wait for another core's. -/
def mmaIssue (s : State) (local_ zero : Bool) (d a b : Nat) : Res :=
  let t := s.cur
  let bad (n : Nat) : Res := .trap s ⟨MATRIX_OPERAND, n, t.mfw⟩
  let teams := mmaTeams s local_
  let claim : Res :=
    let (waits, s) := claimEngines s teams
    let mine := teams.filter fun m => (s.core (teamCore s m)).engine.holder == some m
    match (if zero then none else mine.findSome? fun m => tileMark s m a b true), waits with
    | some p, _ => .trap s ⟨COPY_ABORTED, 0, BitVec.ofNat 64 p.2.mark⟩
    | none, some core => .wait s (.engine core)
    | none, none =>
      if zero then mmaSend s teams true d a b
      else match teams.findSome? fun m => (tileMark s m a b false).map fun p => (m, p.1) with
        | some (m, w) => .wait s (.watermark (teamMember s m) w)
        | none => mmaSend s teams false d a b
  if zero then claim
  else match mmaShape t.mfw with
    | .error n => bad n
    | .ok _ => if bits t.mfw 14 2 == 2 && d % 2 == 1 then bad 4 else claim

/-! ### Rows and elements (12 R302, R303) -/

/-- An operation of the core's queue that writes an accumulator. -/
def accBusy (s : State) (core n : Nat) : Bool :=
  (s.core core).engine.queue.any fun o => o.d == n || (!o.zero && bits o.f 14 2 == 2 && o.d + 1 == n)
/-- Where word L of a row lies (12 R302). -/
def tileWord (r L : Nat) : Nat := if L < 64 then r * 256 + 4 * L else 0x4000 + r * 16 + 4 * (L - 64)
/-- What a team's watermarks say of a word of a row (04 R102, R105). -/
def tileHeld (s : State) (t : Thread) (tb r L : Nat) : Held := heldBy (s.marksOf t.team) 2 tb (tileWord r L) 4
/-- The checks, the claim and the waits of TBW and TBR (12 R302), then the body on the row. -/
def tileIssue (s : State) (b : SReg) (tb : Nat) (write : Bool) (k : State → Nat → List Nat → Res) : Res :=
  let t := s.cur
  let x := t.getS b
  if x.p then .trap s poisonTrap
  else if bits x.v 6 58 != 0 then .trap s ⟨MATRIX_OPERAND, 5, t.mfw⟩
  else match claimEngine s t.team with
    | none => .wait s (.engine t.core)
    | some s =>
      let r := bits x.v 0 6
      let ls := (lanesOf t.mask).filter fun L => L ≤ 67
      let hs := ls.map fun L => tileHeld s t tb r L
      let aborts := hs.filterMap fun h => match h with
        | .aborted a => some a
        | _ => none
      match aborts with
      | a :: rest => .trap s ⟨COPY_ABORTED, 0, BitVec.ofNat 64 (rest.foldl min a)⟩
      | [] =>
        if hs.contains .wait then
          .wait s (.watermark (teamMember s t.team) (((s.marksOf t.team).findIdx? fun w => w.space == 2 && w.tb.toNat == tb && (w.state == 1 || w.state == 2)).getD 0))
        else if write && ((s.core t.core).engine.queue.any fun o => !o.zero && (o.a == tb || o.b == tb)) then .stall s
        else k s r ls
/-- The checks, the claim and the waits of ACRD and ACWR (12 R303), then the body on the active lanes and their elements. -/
def accIssue (s : State) (b : SReg) (n : Nat) (wide : Bool) (k : State → List (Nat × Nat) → Res) : Res :=
  let t := s.cur
  let base := t.getS b
  let stride := t.getRun b 1
  let es := (lanesOf t.mask).map fun L => (L, base.v.toNat + L * stride.v.toNat)
  if base.p || stride.p then .trap s poisonTrap
  else if es.any fun e => 4096 ≤ e.2 then .trap s ⟨MATRIX_OPERAND, 5, t.mfw⟩
  else if wide && n % 2 == 1 then .trap s ⟨MATRIX_OPERAND, 4, t.mfw⟩
  else match claimEngine s t.team with
    | none => .wait s (.engine t.core)
    | some s => if accBusy s t.core n || (wide && accBusy s t.core (n + 1)) then .stall s else k s es

/-- 12 R296. -/
def execMfmt (a : SReg) (s : State) : Host.Outcome State Fault Refusal :=
  issue userSeq [rS a] s fun s =>
    let x := s.cur.getS a
    if x.p then .trap s poisonTrap else .ok (s.modCur fun t => { t with mfw := x.v })

/-- 12 R300. -/
def execMma (d : Fin 4) (a : Fin 8) (b : Fin 8) (s : State) : Host.Outcome State Fault Refusal :=
  issue userSeq [] s fun s =>
    mmaIssue s false false d.val a.val b.val

/-- 12 R300. -/
def execMmaL (d : Fin 4) (a : Fin 8) (b : Fin 8) (s : State) : Host.Outcome State Fault Refusal :=
  issue userSeq [] s fun s =>
    mmaIssue s true false d.val a.val b.val

/-- 12 R301. -/
def execMzero (d : Fin 4) (s : State) : Host.Outcome State Fault Refusal :=
  issue userSeq [] s fun s =>
    mmaIssue s false true d.val 0 0

/-- 12 R303. -/
def execAcrd (d : VReg) (n : Fin 4) (wide : Bool) (b : SReg) (s : State) : Host.Outcome State Fault Refusal :=
  issue userOnly [wV d (if wide then 2 else 1), rSn b 2] s fun s =>
    accIssue s b n.val wide fun s es =>
      let e := (s.core s.cur.core).engine
      let lane (k L : Nat) : Lane :=
        let i := (((es.find? fun x => x.1 == L).map Prod.snd).getD 0)
        ⟨BitVec.ofNat 32 (e.accGet (n.val + k) i).1, (e.accGet n.val i).2 || (wide && (e.accGet (n.val + 1) i).2)⟩
      let t := s.cur.putLanes (s.cur.wbase + d.val) s.cur.mask (lane 0)
      .ok { s with cur := if wide then t.putLanes (t.wbase + d.val + 1) t.mask (lane 1) else t }

/-- 12 R303. -/
def execAcwr (d : VReg) (n : Fin 4) (wide : Bool) (b : SReg) (s : State) : Host.Outcome State Fault Refusal :=
  issue userOnly [rV d (if wide then 2 else 1), rSn b 2] s fun s =>
    accIssue s b n.val wide fun s es =>
      let t := s.cur
      let put (e : Engine) (x : Nat × Nat) : Engine :=
        let lo := t.lane (t.wbase + d.val) x.1
        let hi := t.lane (t.wbase + d.val + 1) x.1
        let p := lo.p || (wide && hi.p)
        let e := e.accPut n.val x.2 lo.v.toNat p
        if wide then e.accPut (n.val + 1) x.2 hi.v.toNat p else e
      .ok (s.modCore t.core fun k => { k with engine := es.foldl put k.engine })

/-- 12 R302. -/
def execTbw (d : VReg) (n : Fin 8) (b : SReg) (s : State) : Host.Outcome State Fault Refusal :=
  issue userOnly [rV d 1, rS b] s fun s =>
    tileIssue s b n.val true fun s r ls =>
      let t := s.cur
      let put (e : Engine) (L : Nat) : Engine :=
        let x := t.getV d L
        let o := n.val * 0x4400 + tileWord r L
        { e with tiles := Mem.store e.tiles o 4 x.v.toNat, tileP := putBit e.tileP (o / 4) x.p }
      .ok (s.modCore t.core fun k => { k with engine := ls.foldl put k.engine })

/-- 12 R302. -/
def execTbr (d : VReg) (n : Fin 8) (b : SReg) (s : State) : Host.Outcome State Fault Refusal :=
  issue userOnly [wV d 1, rS b] s fun s =>
    tileIssue s b n.val false fun s r _ =>
      let e := (s.core s.cur.core).engine
      let lane (L : Nat) : Lane :=
        if L ≤ 67 then
          let o := n.val * 0x4400 + tileWord r L
          ⟨BitVec.ofNat 32 (Mem.load e.tiles o 4), bit e.tileP (o / 4)⟩
        else Lane.zero
      .ok (s.modCur fun t => t.putV d lane)

/-- 12 R304, R295. -/
def execMpert (a : SReg) (b : SReg) (s : State) : Host.Outcome State Fault Refusal :=
  issue userSeq [rS a, rS b] s fun s =>
    let t := s.cur
    let x := t.getS a
    let y := t.getS b
    let k := bits x.v 16 5
    let count := ((s.clusterOf t.team).map fun c => c.members.length).getD 1
    if x.p || y.p then .trap s poisonTrap
    else if bits x.v 12 4 != 0 || bits x.v 21 43 != 0 || (k != 31 && count ≤ k) then .trap s ⟨MATRIX_OPERAND, 6, t.mfw⟩
    else match claimEngine s t.team with
      | none => .wait s (.engine t.core)
      | some s => .ok (s.modCur fun t => { t with mpert := some (x.v, y.v) })

/-- 12 R305. -/
def execMsync (s : State) : Host.Outcome State Fault Refusal :=
  issue userSeq [] s fun s =>
    let uid := s.cur.uid
    if s.cores.any fun k => k.engine.queue.any fun o => o.uid == uid then .stall s else .ok s

/-- 12 R307. -/
def execSeqgo (a : SReg) (s : State) : Host.Outcome State Fault Refusal :=
  issue userOnly [rS a] s fun s =>
    let t := s.cur
    let x := t.getS a
    if x.p then .trap s poisonTrap
    else if bits x.v 57 7 != 0 then .trap s ⟨ACCESS_VIOLATION, 1, x.v⟩
    else if bits x.v 0 2 != 0 then .trap s ⟨MISALIGNED, 0, x.v⟩
    else
      let s := s.modCore t.core fun k => if k.seqwait.contains t.uid then k else { k with seqwait := k.seqwait ++ [t.uid] }
      if (streamOn s t.core).isSome || (s.core t.core).seqwait.head? != some t.uid then .wait s (.seqgo t.core)
      else match release .pkg s with
        | (false, s) => .stall s
        | (true, s) =>
          let s := s.modCore t.core fun k => { k with seqwait := k.seqwait.filter fun u => u != t.uid }
          let (uid, s) := s.fresh
          .ok { s with threads := s.threads ++ [newStream uid t.team t.core x.v (teamMember s t.team == 0) false s.now] }

end Sys2Proof.Machine
end

