-- ==== Sys2Proof/Machine/Uint.lean ====
section
/-! DEFINITION. The user interrupt instructions (13 R319 to R322). -/
namespace Sys2Proof.Machine

/-- The checks of a descriptor's fields (13 R320): detail 0x01. -/
def descBad (d : Dword) : Bool :=
  bits d 40 24 != 0 || (match bits d 6 2 with
    | 0 => bits d 8 32 != 0
    | 1 => bits d 8 6 != 0
    | 2 => bits d 14 26 != 0
    | _ => true)
/-- The request of a UISENDW whose arrival is presented at its own package: no answer is outstanding beyond it. -/
def ownSend (s : State) (slot : Nat) (desc : Dword) (refused : Bool) : Nat × State :=
  let (id, s) := s.fresh
  let r : HomeReq := ⟨id, s.self, 0, false, 0, 0, false, none, false⟩
  (id, { s with reqs := s.reqs ++ [⟨id, s.self, .ntr, 0, 0, .sendw s.cur.uid slot desc none, r, refused, refused, false⟩] })
/-- Present the arrival of a send at a context entry of this package, once: a posted send goes on; UISENDW waits while the
arrival is to be judged, and, refused, for the accesses before it (15 R338). -/
def sendLocal (s : State) (wait : Bool) (desc : Dword) (at_ cls ident : Nat) (x : Word) (wide : Bool) : Res :=
  let t := s.cur
  let slot := s.slotOf t
  let grid := ((s.gridOf t).map Grid.id).getD 0
  let vec := bits desc 0 6
  if !wait && (s.ctx at_).status == .unknown then .ok (setDen s slot)
  else if !wait then .ok (uiPresent s at_ ⟨cls, ident, vec, x, wide, .send t.uid grid slot none⟩)
  else
    let queue (s : State) : Res :=
      let (id, s) := ownSend s slot desc false
      .wait (uiPresent s at_ ⟨cls, ident, vec, x, wide, .send t.uid grid slot (some id)⟩) (.sendw id)
    if !(s.ctx at_).arrivals.isEmpty then queue s
    else match arrive s at_ cls ident vec x wide with
      | (.recorded, s) => .ok s
      | (.pending, s) => queue s
      | (.refused, s) =>
        if t.liveLog.any fun e => e.unperformed != 0 then
          let (id, s) := ownSend s slot desc true
          .wait s (.sendw id)
        else .trap s ⟨UINT_DENIED, 0, desc⟩
/-- Send an arrival beyond the package; UISENDW waits for its answer. -/
def sendOut (s : State) (wait : Bool) (desc : Dword) (x : Word) (span ep cls ident ctx : Nat)
    (flag : Option (Word × BitVec 8 × List Nat)) (dst : Option (Nat × Nat × Nat)) : Res :=
  let t := s.cur
  let slot := s.slotOf t
  let grid := ((s.gridOf t).map Grid.id).getD 0
  let (id, s) := s.fresh
  let f : ReqFor := if wait then .sendw t.uid slot desc dst else .send t.uid grid slot desc dst
  let a : Arrival := ⟨id, cls, ident, streamId s slot, s.self, ctx, bits desc 0 6, x, flag, !wait⟩
  let s := (sendRemote s id slot ep .wrf f).sayTo span ep (.arrival span ep a)
  if wait then .wait s (.sendw id) else .ok s
/-- A send to a context of this package that the first LOAD of an entry may make known: it waits with what comes from outside (21
R401). -/
def sendSelf (s : State) (wait : Bool) (desc : Dword) (ctx : Nat) (x : Word) : Res :=
  let t := s.cur
  let slot := s.slotOf t
  let grid := ((s.gridOf t).map Grid.id).getD 0
  let (id, s) := s.fresh
  let f : ReqFor := if wait then .sendw t.uid slot desc none else .send t.uid grid slot desc none
  let a : Arrival := ⟨id, 1, s.self, streamId s slot, s.self, ctx, bits desc 0 6, x, none, !wait⟩
  let s := (sendRemote s id slot s.self .wrf f).post (s.now + 1) (.uiArrival a)
  if wait then .wait s (.sendw id) else .ok s
/-- The SPAN release of a send; a PDENY indication faults here (05 R132). -/
def spanRelease (s : State) (k : State → Res) : Res :=
  match release .span s with
  | (false, s) => .stall s
  | (true, s) =>
    let slot := s.slotOf s.cur
    match (s.ctx slot).pdeny with
    | some line => .trap (clearPdeny s slot) ⟨PARAPET_DENIED, 0, BitVec.ofNat 64 (line * 128)⟩
    | none => k s
/-- UISEND and UISENDW (13 R320). -/
def sendIssue (s : State) (a b : SReg) (wait : Bool) : Res :=
  let t := s.cur
  let d := t.getS a
  let y := t.getS b
  let desc := d.v
  let x : Word := y.v.truncate 32
  let slot := s.slotOf t
  if d.p || y.p then .trap s poisonTrap
  else if descBad desc then .trap s ⟨UINT_DENIED, 1, desc⟩
  else match bits desc 6 2 with
  | 0 => match release .pkg s with
    | (false, s) => .stall s
    | (true, s) => sendLocal s wait desc slot 3 (kernelIdent s (((s.gridOf t).map Grid.id).getD 0)) x false
  | 1 =>
    let ep := bits desc 14 10
    let ctx := bits desc 24 16
    if !present s ep || isHost s ep then .trap s ⟨UINT_DENIED, 2, desc⟩
    else if deadCell s (cellOf s ep) || (s.isolated && cellOf s ep != cellOf s s.self) then .trap s ⟨HOME_LOST, 0, desc⟩
    else spanRelease s fun s =>
      if ep == s.self then
        if (slotOfCtx s ctx).isNone && firstLoad s then sendSelf s wait desc ctx x
        else sendLocal s wait desc ((slotOfCtx s ctx).getD 64) 1 ep x true
      else sendOut s wait desc x (spanId s) ep 1 s.self ctx none none
  | _ =>
    let win := bits desc 8 6
    match windowEntry s t.core slot win with
    | (none, s) => .stall s
    | (some w, s) => match windowCheck (BitVec.ofNat 64 win) w 2 false [] 0 with
      | some (n, off) => .trap s ⟨REMOTE_WINDOW, n, winAddr win off⟩
      | none =>
        let dspan := winDspan w
        let dpkg := winDpkg w
        let dctx := winDctx w
        -- nothing leaves the cell of a package that has isolated itself (05 R138)
        if beyondCell s dspan dpkg then .trap s ⟨HOME_LOST, 0, desc⟩
        else match takeStream s slot dspan dpkg dctx with
        | none => .wait s (.streamTable win)
        | some (e, _) =>
          if 4 ≤ e.flags.length then .wait s (.streamTable win)
          else spanRelease s fun s =>
            match takeStream s slot dspan dpkg dctx with
            | none => .wait s (.streamTable win)
            | some (e, s) =>
              let s := modStream s slot dspan dpkg dctx fun e => { e with
                counts := [0, 0, 0, 0], epoch := e.epoch + 1, flags := e.flags ++ [(s.seq, false)] }
              sendOut s wait desc x dspan dpkg 2 (spanId s * 1024 + s.self) dctx (some (winKey w, e.epoch, e.counts))
                (some (dspan, dpkg, dctx))
/-- The wait of UISENDW (13 R320): its request gone is an answer `recorded`; a refusal comes after the faults of the accesses
before it (15 R338). DESIGN CHOICE: TRAPADDR of HOME_LOST and REMOTE_TIMEOUT is the descriptor (log 97). -/
def sendwWait (s : State) (id : Nat) : Res :=
  match s.reqs.find? fun r => r.id == id with
  | none => .ok s
  | some r =>
    let desc : Dword := match r.for_ with
      | .sendw _ _ desc _ => desc
      | _ => 0
    if !r.ended || s.cur.liveLog.any fun e => e.unperformed != 0 then .stall s
    else if r.held then .trap (dropReq s id) ⟨UINT_DENIED, 0, desc⟩
    else match r.kind with
      | .dead _ => .trap (dropReq s id) ⟨HOME_LOST, 0, desc⟩
      | _ => .trap (dropReq s id) ⟨REMOTE_TIMEOUT, 1, desc⟩

/-- 13 R320. -/
def execUisend (a : SReg) (b : SReg) (s : State) : Host.Outcome State Fault Refusal :=
  issue userSeq [rS a, rS b] s fun s =>
    sendIssue s a b false

/-- 13 R320. -/
def execUisendw (a : SReg) (b : SReg) (s : State) : Host.Outcome State Fault Refusal :=
  issue userOnly [rS a, rS b] s fun s =>
    sendIssue s a b true

/-- 13 R322. -/
def execUiret (s : State) : Host.Outcome State Fault Refusal :=
  issue userOnly [] s fun s =>
    let slot := s.slotOf s.cur
    let u := (s.ctx slot).ui
    if u.hg != some s.cur.uid || !u.inh then .trap s (hereTrap s ILLEGAL_INSN 0x08)
    else
      let s' := (s.modCtx slot fun c => { c with ui := { c.ui with inh := false } }).modCur fun t => t.setMask (maskOf u.savm)
      .done ((conclude s (.ok s')).modCur fun t => { t with pc := u.pc, fetched := none })

/-- 13 R321. -/
def execUiack (d : SReg) (b : SReg) (s : State) : Host.Outcome State Fault Refusal :=
  issue userOnly [wS d, rS b] s fun s =>
    let y := s.cur.getS b
    if y.p then .trap s poisonTrap
    else
      let slot := s.slotOf s.cur
      let n := bits y.v 0 6
      let u := (s.ctx slot).ui
      let x := BitVec.ofNat 64 ((u.cnt.getD n 0).toNat * 2 ^ 32 + (u.data.getD n 0).toNat)
      let clear (u : UiRegs) : UiRegs := { u with
        pend := putBit u.pend n false, wide := putBit u.wide n false, cnt := setAt u.cnt n 0, data := setAt u.data n 0 }
      putScalars (s.modCtx slot fun c => { c with ui := clear c.ui }) d.val [⟨x, false⟩]

/-- 13 R321. -/
def execUipoll (d : SReg) (s : State) : Host.Outcome State Fault Refusal :=
  issue userOnly [wS d] s fun s =>
    putScalars s d.val [⟨(s.ctxOf s.cur).ui.pend, false⟩]

end Sys2Proof.Machine
end

