-- ==== Sys2Proof/Machine/Priv.lean ====
section
/-! DEFINITION. The privileged instructions (15 R343 to R349) and the disposal of held faults (15 R351). -/
namespace Sys2Proof.Machine

/-- An entry goes on: its unperformed lanes are sent again, translated afresh. -/
def LogEntry.replay (e : LogEntry) : LogEntry := { e with faults := [], held := false }
/-- An entry's unperformed lanes are marked performed without being sent. -/
def LogEntry.drop (e : LogEntry) : LogEntry := { e with faults := [], held := false, moving := 0, performed := e.performed ||| e.active }

/-- FQCMD for the externally held entries of a group (15 R351); younger entries go on as after a trap: their faults are raised
again when they are replayed (15 R338). -/
def fqCommand (s : State) (w : Dword) : State :=
  let op := bits w 61 2
  let core := bits w 37 9
  let team := s.teams.find? fun m => m.core == core && m.slot == bits w 46 2 && !m.exited
  match team with
  | none => s
  | some m =>
    if !bit w 63 || op == 0 || op == 3 then s
    else s.allThreads.foldl (fun (s : State) t =>
      if t.team == m.id && !t.stream && t.gid == bits w 48 4 && t.log.any LogEntry.held then
        (s.modThread t.uid fun t => { t with
          log := (t.log.map fun e => if e.held then (if op == 1 then e.replay else e.drop) else { e with faults := [] }).filter fun e =>
            e.unperformed != 0
          wait := .none, stall := false }).wake
      else s) s
/-- FQCMD for a copy that is frozen and reported (15 R351, 04 R106). -/
def fqCopy (s : State) (w : Dword) : State :=
  let op := bits w 61 2
  let team := s.teams.find? fun m => m.core == bits w 37 9 && m.slot == bits w 46 2 && !m.exited
  match team with
  | none => s
  | some m => match s.copies.find? fun c => c.team == m.id && c.w == bits w 52 4 && (c.frozen == some 0x05 || c.frozen == some 0x08) with
    | none => s
    | some c =>
      if !bit w 63 then s
      else if op == 1 then copyResume s c.id
      else if op == 2 then abortCopy s c.id (c.frozen.getD 0)
      else s
/-- FQCMD, by SWRP or at its package register. -/
def fqDispose (s : State) (w : Dword) : State := if bit w 60 then fqCopy s w else fqCommand s w

/-- The word of TRAPDISP (15 R343). -/
def trapDisp (t : Thread) : Dword := BitVec.ofNat 64 (t.trapLog.toNat * 2 + t.trapDrop.toNat)
/-- The value that SRDP reads; a register that is write-only reads zero (00 R6). -/
def readPriv (s : State) (i : PrivReg) : Dword :=
  let t := s.cur
  let c := s.ctxOf t
  match i with
  | .ncw n => c.ncw.getD n.val 0
  | .trapnpc => t.trapnpc
  | .trapdisp => trapDisp t
  | .ctxnum => BitVec.ofNat 64 c.num
  | .fltpend k => (maskWord t.fltpend k.val).zeroExtend 64
  | .fltinsn => t.fltinsn.zeroExtend 64
  | .lselv => BitVec.ofNat 64 t.lselv
  | .fqcmd => 0
/-- Whether SWRP may name a register (15 R343). -/
def privWritable (i : PrivReg) : Bool :=
  match i with
  | .ncw _ | .trapnpc | .fqcmd => true
  | _ => false
/-- The bits of an NCW register that are not reserved (01 R30). -/
def ncwBits : Dword := 0x01FFFFFFFFFF00FD
/-- SWRP of a register that may be written. A window is saved in the context block at once (01 R30, log 78). -/
def writePriv (s : State) (i : PrivReg) (x : Dword) : State :=
  match i with
  | .ncw n =>
    let slot := s.slotOf s.cur
    let s := s.modCtx slot fun c => { c with ncw := setAt c.ncw n.val (x &&& ncwBits) }
    blockWrite s slot (0x80 + 8 * n.val) 8 (x &&& ncwBits).toNat none
  | .trapnpc => s.modCur fun t => { t with trapnpc := x }
  | .fqcmd => fqDispose s x
  | _ => s

/-- An invalidation on its way to a package (01 R36). DESIGN CHOICE: it has no timer, and is over at once where its package is cut off
or its cell is DEAD (log 85). -/
def sendInval (s : State) (ep ctx : Nat) (k : InvKind) : Nat × State :=
  let (id, s) := s.fresh
  let m : InvMsg := ⟨id, s.self, ctx, k⟩
  (id, if ep == s.self then s.post (s.now + 1) (.invalidation m)
    else if shunned s ep then s.post s.now (.invalidationAck id)
    else State.sayTo { s with invOut := (id, ep) :: s.invOut } (spanId s) ep (.inval ep m))

/-- 15 R347. It waits for the handler's own accesses, so that a fault of one is met in supervisor mode (15 R342; log 36). -/
def execTrapret (s : State) : Host.Outcome State Fault Refusal :=
  issue supOnly [] s fun s =>
    let t := s.cur
    if t.liveLog.any fun e => e.unperformed != 0 then .stall s
    else
    let user (e : LogEntry) : LogEntry := if e.sup then e
      else if t.trapDrop && e.id == t.trapEntry then e.drop else { e with faults := [] }
    let t' := if t.trapLog then { t with log := (t.log.map user).filter fun e => e.unperformed != 0 } else t
    .done { s with cur := { leaveTrap t' with stall := false, wait := .none, issuedAt := some s.now } }

/-- 15 R345. -/
def execSrdp (d : SReg) (i : PrivReg) (s : State) : Host.Outcome State Fault Refusal :=
  issue supOnly [wS d] s fun s =>
    putScalars s d.val [⟨readPriv s i, false⟩]

/-- 15 R345. -/
def execSwrp (i : PrivReg) (d : SReg) (s : State) : Host.Outcome State Fault Refusal :=
  issue supOnly [rS d] s fun s =>
    let x := s.cur.getS d
    if !privWritable i then .trap s (hereTrap s ILLEGAL_INSN 0)
    else if x.p then .trap s poisonTrap
    else .ok (writePriv s i x.v)

/-- 15 R346. -/
def execLsel (a : SReg) (s : State) : Host.Outcome State Fault Refusal :=
  issue supOnly [rS a] s fun s =>
    let x := s.cur.getS a
    if x.p then .trap s poisonTrap
    else if bits x.v 7 57 != 0 || 95 < bits x.v 0 7 then .trap s (hereTrap s ILLEGAL_INSN 0x01)
    else .ok (s.modCur fun t => { t with lselv := bits x.v 0 7 })

/-- 15 R346. -/
def execLrdv (d : SReg) (a : VReg) (s : State) : Host.Outcome State Fault Refusal :=
  issue supOnly [wS d, rF a] s fun s =>
    let x := s.cur.lane (s.cur.wbase + a.val) s.cur.lselv
    putScalars s d.val [⟨BitVec.ofNat 64 (x.v.toNat + x.p.toNat * 2 ^ 32), false⟩]

/-- 15 R346. -/
def execLwrv (d : SReg) (a : VReg) (s : State) : Host.Outcome State Fault Refusal :=
  issue supOnly [rS d, wF a] s fun s =>
    let x := s.cur.getS d
    if x.p then .trap s poisonTrap
    else .ok (s.modCur fun t => t.putLanes (t.wbase + a.val) (laneBit t.lselv) fun _ => ⟨x.v.truncate 32, bit x.v 32⟩)

/-- 15 R346. DESIGN CHOICE: bit 0 is the value bit as it stands, also under P = 1, where 10 R245 has a poisoned bit read as 0 (log
88). -/
def execLrdp (d : SReg) (a : PReg) (s : State) : Host.Outcome State Fault Refusal :=
  issue supOnly [wS d, rP a] s fun s =>
    let p := s.cur.getP a
    let L := s.cur.lselv
    putScalars s d.val [⟨BitVec.ofNat 64 ((p.v.getLsbD L).toNat + (p.p.getLsbD L).toNat * 2), false⟩]

/-- 15 R346. -/
def execLwrp (d : SReg) (a : PReg) (s : State) : Host.Outcome State Fault Refusal :=
  issue supOnly [rS d, wP a] s fun s =>
    let x := s.cur.getS d
    if x.p then .trap s poisonTrap
    else
      let m := laneBit s.cur.lselv &&& s.cur.launched
      let set (o : LaneMask) (b : Bool) : LaneMask := (o &&& ~~~m) ||| (if b then m else 0)
      .ok (s.modCur fun t => { t with preds := modAt t.preds a.val fun o => ⟨set o.v (bit x.v 0), set o.p (bit x.v 1)⟩ })

/-- 15 R348. -/
def execTlbinv (a : SReg) (b : SReg) (s : State) : Host.Outcome State Fault Refusal :=
  issue supOnly [rS a, rS b] s fun s =>
    let x := s.cur.getS a
    let y := s.cur.getS b
    let kind := bits x.v 0 2
    let ep := bits x.v 32 10
    if x.p || y.p then .trap s poisonTrap
    else if bits x.v 2 14 != 0 || bits x.v 42 22 != 0 || kind == 3 || (kind == 0 && bits y.v 57 7 != 0) || !present s ep || isHost s ep then
      .trap s ⟨ACCESS_VIOLATION, 0x50, y.v⟩
    else
      let k : InvKind := match kind with
        | 0 => .page y.v.toNat
        | 1 => .context
        | _ => .all
      let (id, s) := sendInval s ep (bits x.v 16 16) k
      .ok (s.modCur fun t => { t with invs := id :: t.invs })

/-- 15 R348. -/
def execTlbsync (s : State) : Host.Outcome State Fault Refusal :=
  issue supOnly [] s fun s =>
    if s.cur.invs.isEmpty then .ok s else .stall s

/-- 15 R347. -/
def execFreplay (s : State) : Host.Outcome State Fault Refusal :=
  issue supOnly [] s fun s =>
    .ok (s.modCur fun t => { t with trapDrop := false })

/-- 15 R347. -/
def execFdrop (s : State) : Host.Outcome State Fault Refusal :=
  issue supOnly [] s fun s =>
    .ok (s.modCur fun t => { t with trapDrop := t.trapLog })

/-- 15 R349. -/
def execHalt (a : SReg) (s : State) : Host.Outcome State Fault Refusal :=
  issue supOnly [rS a] s fun s =>
    let x := s.cur.getS a
    if x.p then .trap s poisonTrap
    else .done (contextError s (bits x.v 0 8) (bits x.v 8 8) (bits x.v 8 8) 0)

end Sys2Proof.Machine
end

