-- ==== Sys2Proof/Machine/Remotein.lean ====
section
/-! DEFINITION. The destination side of traffic from other spans and of arrivals (05 R148 to R150, 01 R20, 03 R88, R89,
13 R313, R318), and how a message from outside becomes a step. -/
namespace Sys2Proof.Machine

/-- A message or an event: nothing happens before the package has booted, or in recovery (17 R370). -/
def event (s : State) (f : State → State) : Host.Outcome State Fault Refusal :=
  .next (if s.booted && !s.recovery then f s else s)

/-- The same of the source of a stream; a package that has isolated itself answers no other span (05 R138). -/
def shunnedSrc (s : State) (src : StreamId) : Bool :=
  if src.span == spanId s then src.pkg != s.self && shunned s src.pkg else s.isolated

/-! ### Performing for another span (01 R20) -/

/-- The entry of a loaded context whose remote key matches. -/
def remoteCtx (s : State) (dctx : Nat) (key : Word) : Option Nat :=
  match slotOfCtx s dctx with
  | some k => if (s.ctx k).status == .loaded && (s.ctx k).key == key then some k else none
  | none => none

/-- What becomes of a request at its beginning. -/
inductive Begun where
  | refused | again
  | sent (s : State)

/-- Send the write of a request to its line, in user mode; a translation that fails refuses it (01 R20). A line of
host-coherent memory is written near (05 R147), every other far. -/
def remoteWrite (s : State) (slot va n : Nat) (data : Nat) (mask : LineMask) (psn : Bool) (atom : Option (AtomOp × Dword × Bool))
    (tag : Nat) : Begun × State :=
  match xlatNow s 0 slot (BitVec.ofNat 64 va) .write false with
  | (.pending, s) => (.again, s)
  | (.fault _, s) => (.refused, s)
  | (.ok pa cen, s) =>
    let off := pa % 128
    let a := atom.map fun x => (⟨x.1, off, n, x.2.1, 0, x.2.2⟩ : AtomReq)
    let nc := inWindow (s.ctx slot) va
    let (id, s) := s.fresh
    (.sent (l2Arrive s ⟨id, pa / 128, slot, nc, cen, lineAt off n data, if atom.isSome then 0 else mask <<< off, psn, a, s.now + 1,
      .remote tag, va / 128 * 128, false, false, !isHost s (lineEp (pa / 128))⟩), s)

/-! ### Epochs (05 R150) -/

def DestEpoch.is (e : DestEpoch) (src : StreamId) (dctx : Nat) (epoch : BitVec 8) : Bool :=
  e.src == src && e.dctx == dctx && e.epoch == epoch
/-- Puts performed in an epoch, by path. -/
def epochCounts (s : State) (src : StreamId) (dctx : Nat) (epoch : BitVec 8) : List Nat :=
  ((s.epochs.find? fun e => e.is src dctx epoch).map DestEpoch.counts).getD [0, 0, 0, 0]
def epochDrop (s : State) (src : StreamId) (dctx : Nat) (epoch : BitVec 8) : State :=
  { s with epochs := s.epochs.filter fun e => !e.is src dctx epoch }
/-- Count a put that was performed or refused; the flags that wait look again. -/
def epochCount (s : State) (m : PutMsg) : State :=
  let cs := modAt (epochCounts s m.src m.dctx m.epoch) m.path.val (· + 1)
  let s := epochDrop s m.src m.dctx m.epoch
  let s : State := { s with epochs := s.epochs ++ [⟨m.src, m.dctx, m.epoch, cs⟩] }
  s.jobs.foldl (fun (s : State) j => match j with
    | (_, .flag f, 0) => if f.src == m.src && f.dctx == m.dctx then s.post s.now (.rputfDelivery f) else s
    | (_, .arrival a, 0) => if a.src == m.src && a.ctx == m.dctx then s.post s.now (.uiArrival a) else s
    | _ => s) s
/-- Every put that a flag counts has been performed. -/
def epochReady (s : State) (src : StreamId) (dctx : Nat) (epoch : BitVec 8) (counts : List Nat) : Bool :=
  epochCounts s src dctx epoch == counts

/-! ### Jobs -/

/-- The job of a request. -/
def jobOf (s : State) (j : RemoteJob) : Option (Nat × Nat) :=
  (s.jobs.find? fun x => match x.2.1, j with
    | .put a, .put b => a == b
    | .flag a, .flag b => a == b
    | .get a, .get b => a == b
    -- the answer overwrites the operand of an atomic
    | .atom a, .atom b => a.id == b.id && a.src == b.src
    | .arrival a, .arrival b => a == b
    | _, _ => false).map fun x => (x.1, x.2.2)
def jobDrop (s : State) (tag : Nat) : State := { s with jobs := s.jobs.filter fun j => j.1 != tag }
def jobSet (s : State) (tag st : Nat) : State :=
  { s with jobs := s.jobs.map fun j => if j.1 == tag then (j.1, j.2.1, st) else j }
def jobNew (s : State) (j : RemoteJob) : Nat × State :=
  let (tag, s) := s.fresh
  (tag, { s with jobs := s.jobs ++ [(tag, j, 0)] })

/-- A request whose source is shunned is discarded; a write that was sent for it stands. -/
def jobDiscard (s : State) (j : RemoteJob) : State :=
  match jobOf s j with
  | some (tag, _) => jobDrop s tag
  | none => s

/-- RPUT DELIVERY: performed as a store of this cell, acknowledged afterwards; a refusal counts as performed. -/
def putDeliver (s : State) (m : PutMsg) : State :=
  let finish (s : State) (ok : Bool) : State := (epochCount s m).say (.remoteAck m.src m.id ok)
  let begin (s : State) (tag : Nat) : State :=
    match remoteCtx s m.dctx m.key with
    | none => finish (jobDrop s tag) false
    | some slot => match remoteWrite s slot m.va 64 m.data.toNat (m.mask.zeroExtend 128) m.psn none tag with
      | (.refused, s) => finish (jobDrop s tag) false
      | (.again, s) => (jobDrop s tag).post (s.now + Config.pollTicks) (.rputDelivery m)
      | (.sent s, _) => s
  if shunnedSrc s m.src then jobDiscard s (.put m)
  else match jobOf s (.put m) with
  | some (tag, 1) => finish (jobDrop s tag) true
  | some (tag, 2) => finish (jobDrop s tag) false
  | some (tag, 3) => begin (jobSet s tag 0) tag
  | some _ => s
  | none => let (tag, s) := jobNew s (.put m); begin s tag

/-- RPUTF DELIVERY (03 R89): after the puts that it counts; it closes its epoch. -/
def flagDeliver (s : State) (m : FlagMsg) : State :=
  let finish (s : State) (ok : Bool) : State := (epochDrop s m.src m.dctx m.epoch).say (.remoteAck m.src m.id ok)
  let begin (s : State) (tag : Nat) : State :=
    if !epochReady s m.src m.dctx m.epoch m.counts then s
    else match remoteCtx s m.dctx m.key with
      | none => finish (jobDrop s tag) false
      | some slot => match remoteWrite s slot m.va 8 m.data.toNat 0xFF m.psn none tag with
        | (.refused, s) => finish (jobDrop s tag) false
        | (.again, s) => s.post (s.now + Config.pollTicks) (.rputfDelivery m)
        | (.sent s, _) => s
  if shunnedSrc s m.src then jobDiscard s (.flag m)
  else match jobOf s (.flag m) with
  | some (tag, 1) => finish (jobDrop s tag) true
  | some (tag, 2) => finish (jobDrop s tag) false
  | some (tag, 3) => begin (jobSet s tag 0) tag
  | some (tag, _) =>
    -- waiting for its counts, or for its write
    if s.l2w.any fun w => w.who == .remote tag then s else begin s tag
  | none => let (tag, s) := jobNew s (.flag m); begin s tag

/-- RGET DELIVERY: a load performed here. -/
def getDeliver (s : State) (m : GetMsg) : State :=
  let answer (s : State) (ok : Bool) (d : Nat) (psn : Bool) : State := s.say (.remoteAns m.src ⟨m.id, ok, BitVec.ofNat 512 d, psn⟩)
  if shunnedSrc s m.src then s
  else match remoteCtx s m.dctx m.key with
  | none => answer s false 0 false
  | some slot => match devRead s 0 slot false (BitVec.ofNat 64 m.va) 64 with
    | (.pending, s) => s.post (s.now + Config.pollTicks) (.rgetDelivery m)
    | (.fault _, s) => answer s false 0 false
    | (.ok v psn, s) => answer s true v psn

/-- RATOM DELIVERY: always far (03 R88). -/
def atomDeliver (s : State) (m : RAtomMsg) : State :=
  let answer (s : State) (ok : Bool) (v : Dword) (psn : Bool) : State := s.say (.remoteAns m.src ⟨m.id, ok, v.zeroExtend 512, psn⟩)
  let begin (s : State) (tag : Nat) : State :=
    match remoteCtx s m.dctx m.key with
    | none => answer (jobDrop s tag) false 0 false
    | some slot => match remoteWrite s slot m.va 8 0 0 m.psn (some (m.op, m.opnd, m.psn)) tag with
      | (.refused, s) => answer (jobDrop s tag) false 0 false
      | (.again, s) => (jobDrop s tag).post (s.now + Config.pollTicks) (.ratomDelivery m)
      | (.sent s, _) => s
  if shunnedSrc s m.src then jobDiscard s (.atom m)
  else match s.jobs.find? fun x => match x.2.1 with
    | .atom a => a.id == m.id && a.src == m.src
    | _ => false with
  | some (tag, .atom a, 1) => answer (jobDrop s tag) true a.opnd a.psn
  | some (tag, _, 2) => answer (jobDrop s tag) false 0 false
  | some (tag, _, 3) => begin (jobSet s tag 0) tag
  | some _ => s
  | none => let (tag, s) := jobNew s (.atom m); begin s tag

/-- An arrival from a host, another package or another span (13 R313 to R318); one of kind 2 waits as an RPUTF does. It is
judged after those that came before it (13 R314); one with a key that does not match is counted as refused. -/
def arrivalDeliver (s : State) (a : Arrival) : State :=
  let over_ (s : State) : State := match a.flag with
    | none => s
    | some (_, epoch, _) => epochDrop (jobDiscard s (.arrival a)) a.src a.ctx epoch
  let refuse (s : State) : State := if a.id == 0 then over_ s else answerSend (over_ s) a.src a.ep a.id false
  let record (s : State) : State := match slotOfCtx s a.ctx with
    -- the first LOAD of an entry has still to read its number (21 R401)
    | none => if firstLoad s then s.post (s.now + 1) (.uiArrival a) else refuse s
    | some k =>
      let bad : Bool := match a.flag with
        | some (key, _, _) => (s.ctx k).key != key
        | none => false
      if !bad then uiPresent (over_ s) k ⟨a.cls, a.ident, a.vec, a.data, true, .msg a.src a.ep a.id⟩
      else match countDrop s k with
        | (true, s) => refuse s
        | (false, s) => s.post (s.now + Config.pollTicks) (.uiArrival a)
  match a.flag with
  | none => if a.ep != s.self && shunned s a.ep then s else record s
  | some (_, epoch, counts) =>
    if shunnedSrc s a.src then jobDiscard s (.arrival a)
    else if epochReady s a.src a.ctx epoch counts then record s
    else if (jobOf s (.arrival a)).isSome then s else (jobNew s (.arrival a)).2

/-- A CANCEL of an endpoint of this span or of another (05 R135, R150): at the home; or a flag that waits here, and its epoch's counts;
or an arrival that has still to be judged. -/
def cancelDeliver (s : State) (c : Canceller) (id : Nat) : State :=
  let s := if c.span == spanId s then homeCancel s c.ep id else s
  let ours (x : UiArr) : Bool := match x.from_ with
    | .msg src e i => src.span == c.span && e == c.ep && i == id && i != 0
    | _ => false
  let s : State := { s with ctxs := s.ctxs.map fun k => { k with arrivals := k.arrivals.filter fun x => !ours x } }
  s.jobs.foldl (fun (s : State) j => match j with
    | (tag, .flag m, 0) =>
      if m.id == id && m.src.span == c.span && m.src.pkg == c.ep && !(s.l2w.any fun w => w.who == .remote tag) then
        epochDrop (jobDrop s tag) m.src m.dctx m.epoch
      else s
    | (tag, .arrival a, 0) =>
      if a.id == id && a.src.span == c.span && a.ep == c.ep then (match a.flag with
        | some (_, e, _) => epochDrop (jobDrop s tag) a.src a.ctx e
        | none => jobDrop s tag)
      else s
    | _ => s) s

/-- Requests of other spans whose write has been performed, refused, or met a moving page go on. -/
def jobsGoOn (s : State) : State :=
  s.jobs.foldl (fun (s : State) j => if j.2.2 == 0 then s else match j.2.1 with
    | .put m => s.post s.now (.rputDelivery m)
    | .flag m => s.post s.now (.rputfDelivery m)
    | .atom m => s.post s.now (.ratomDelivery m)
    | .get m => s.post s.now (.rgetDelivery m)
    | .arrival a => s.post s.now (.uiArrival a)) s

/-! ### The events -/

/-- 05 R148, R150, 01 R20. -/
def execRputDelivery (m : PutMsg) (s : State) : Host.Outcome State Fault Refusal := event s fun s => putDeliver s m
/-- 03 R89, 05 R150. -/
def execRputfDelivery (m : FlagMsg) (s : State) : Host.Outcome State Fault Refusal := event s fun s => flagDeliver s m
/-- 03 R88, 01 R20. -/
def execRgetDelivery (m : GetMsg) (s : State) : Host.Outcome State Fault Refusal := event s fun s => getDeliver s m
/-- 03 R88, 01 R20. -/
def execRatomDelivery (m : RAtomMsg) (s : State) : Host.Outcome State Fault Refusal := event s fun s => atomDeliver s m
/-- 05 R150: the destination discards its counts for the epoch and acknowledges; a close of a shunned source is discarded. -/
def execEpochClose (src : StreamId) (dst : Nat) (epoch : BitVec 8) (id : Nat) (s : State) : Host.Outcome State Fault Refusal :=
  event s fun s => if shunnedSrc s src then s else (epochDrop s src dst epoch).say (.closeAck src id)
/-- 05 R149, R150. -/
def execEpochCloseAck (id : Nat) (s : State) : Host.Outcome State Fault Refusal := event s fun s => closeAck s id
/-- 01 R20, 05 R149. -/
def execRemoteAck (id : Nat) (ok : Bool) (s : State) : Host.Outcome State Fault Refusal := event s fun s => remoteAck s id ok
/-- 11 R287. -/
def execRemoteAnswer (a : RemoteAns) (s : State) : Host.Outcome State Fault Refusal := event s fun s => remoteAnswer s a
/-- 13 R314. -/
def execUiArrival (a : Arrival) (s : State) : Host.Outcome State Fault Refusal := event s fun s => arrivalDeliver s a
/-- 13 R320. -/
def execUiSendAnswer (id : Nat) (recorded : Bool) (s : State) : Host.Outcome State Fault Refusal :=
  event s fun s => sendAnswer s id recorded
/-- 05 R135. -/
def execCancel (ep : Canceller) (id : Nat) (s : State) : Host.Outcome State Fault Refusal :=
  event s fun s => cancelDeliver s ep id
/-- 02 R59, R60: what waits on a line, and what another span asked for, is looked at again. -/
def execLeaseExpiry (line : Nat) (s : State) : Host.Outcome State Fault Refusal :=
  event s fun s => jobsGoOn (leaseExpiry s line)

end Sys2Proof.Machine
end

