-- ==== Sys2Proof/Machine/Homein.lean ====
section
/-! DEFINITION. Requests, recalls and answers that arrive from other endpoints, as steps (05 R127 to R135, R139, R145). -/
namespace Sys2Proof.Machine

/-! ### Package register space reached by requests (17 R365) -/

/-- A read of a register line: 8 aligned bytes read their register, any other read gives zero (17 R365); one of TLBICMD waits (17
R366). -/
def regLineRead (s : State) (r : HomeReq) : State :=
  let run := maskRun r.mask
  match (if run.2 == 8 && run.1 % 8 == 0 then regRead s (lineOff r.line - 2 ^ 39 + run.1) else some 0) with
  | none => s.post (s.now + Config.pollTicks) (.ntr r)
  | some v => s.say (.homeAns r.ep ⟨r.id, .data, lineAt run.1 8 v, true, false, 0⟩)
/-- A write to a register line: a store to a launch port in its turn, any other at once. -/
def regLineWrite (s : State) (r : HomeReq) : State :=
  match portOf r.line r.mask with
  | some slot => portQueue s slot ⟨r.ep, BitVec.ofNat 64 (lineGet r.data (maskRun r.mask).1 8), .req r.ep r.id⟩
  | none => (s.postFirst (regStore r.line r.data r.mask r.ep)).say (.homeAns r.ep ⟨r.id, .ack, 0, false, false, 0⟩)

/-- A request arrives (05 R127 to R129). -/
def requestArrive (s : State) (kind : HomeKind) (r : HomeReq) : State :=
  if ownReg s r.line then
    if shunned s r.ep then s
    else match kind with
      | .wrf => regLineWrite s r
      -- an atomic does not reach a register; other reads do not keep one
      | .atf => s.say (.homeAns r.ep ⟨r.id, .result, 0, false, false, 0⟩)
      | .wbk => s.say (.homeAns r.ep ⟨r.id, .ack, 0, false, false, 0⟩)
      | _ => regLineRead s r
  else homeArrive s kind r

/-- A request as a step: in recovery the package answers only what a host asks of its registers over PCIe (17 R370; log 93). -/
def lineRequest (kind : HomeKind) (r : HomeReq) (s : State) : Host.Outcome State Fault Refusal :=
  if s.recovery then .next (if ownReg s r.line && isHost s r.ep then requestArrive s kind r else s)
  else event s fun s => requestArrive s kind r

/-! ### Retries (05 R128, R145) -/

/-- The context entry of a request that left the package. -/
def reqSlot (s : State) (r : OutReq) : Nat :=
  match r.for_ with
  | .line slot _ | .untracked slot => slot
  | .write id => ((s.l2w.find? fun w => w.id == id).map L2Write.slot).getD 0
  | _ => 0
/-- The waiting writes that a request carries. -/
def reqWrites (s : State) (r : OutReq) : List L2Write :=
  match r.for_ with
  | .write id => s.l2w.filter fun w => w.id == id
  | .line slot nc => lineWrites s r.line (if nc then some slot else none)
  | _ => []

/-- A write that a move holds leaves its slice: a store buffer entry and a copy wait for the move, the rest is kept with the request
(05 R145). -/
def holdWrite (s : State) (w : L2Write) : State :=
  match w.who with
  | .sb .. | .copy .. => l2Moving s w
  | _ => l2Leave s w
/-- RETRY MIGRATING (05 R145): the accesses that write wait in the replay buffer and hold no translation, the timer starts again, a
copy freezes; loads that waited for the same line ask for themselves. -/
def retryMigrating (s : State) (id : Nat) : State :=
  match s.reqs.find? fun r => r.id == id && !r.ended with
  | none => s
  | some r =>
    let due := s.now + (s.ctx (reqSlot s r)).timeout
    let ws := reqWrites s r
    let for_ := match r.for_ with
      | .write _ | .line .. => .held ws
      | f => f
    let s : State := { s with reqs := s.reqs.map fun q => if q.id == id then { q with held := true, due := due, for_ := for_ } else q }
    (lineOver (ws.foldl holdWrite (s.post due (.requestTimeout id))) r.line).wake

/-- A write of an image, by the virtual address that it was translated from, is translated afresh. -/
def deviceAgain (s : State) (w : L2Write) : State :=
  let w := { w with arrived := s.now + 1, asked := false }
  if w.va == 0 then l2Arrive s w
  else match xlatNow s 0 w.slot (BitVec.ofNat 64 w.va) .write true with
    | (.ok pa _, s) => l2Arrive s { w with line := pa / 128 }
    | (_, s) => l2Arrive s w
/-- A write that was kept goes on: what another span asked for is translated afresh, and an image. -/
def replayWrite (s : State) (w : L2Write) : State :=
  match w.who with
  | .sb .. | .copy .. => s
  | .remote tag => State.post { s with jobs := s.jobs.map fun j => if j.1 == tag then (j.1, j.2.1, 3) else j } s.now (.leaseExpiry w.line)
  -- what the device writes it translates and writes again itself
  | .device _ => s
  | .none => deviceAgain s w
/-- A page has moved, or its move was abandoned: stores and atomics are translated afresh, copies that the move froze resume.
DEDUCED: a saved one is from now on frozen by its eviction alone (04 R112; log 84). -/
def pageMoved (s : State) (page : Nat) : State :=
  let thaw (c : Copy) : Copy := if c.frozen == some 0x20 && c.onMove == some page then { c with frozen := some 0x21, onMove := none } else c
  let mark (cs : List Copy) (t : Team) : Team :=
    let hit (w : Nat) : Bool := cs.any fun c => c.frozen == some 0x20 && c.onMove == some page && c.w == w
      && (c.team == t.id || (bit c.ctl 24 && c.into.any fun p => p.1 == t.member))
    { t with marks := mapFrom (fun w m => if m.state == 2 && m.cause == 0x20 && hit w then { m with cause := 0x21 } else m) 0 t.marks }
  let s : State := { sbRelease s page with
    saved := s.saved.map fun c => { c with copies := c.copies.map thaw, teams := c.teams.map (mark c.copies) } }
  let ours := s.l2w.filter fun w => pageOf w.line == page && w.va != 0 && (w.who == .none || w.who == .device 0)
  let s := ours.foldl replayWrite { s with l2w := s.l2w.filter fun w => !(ours.any fun v => v.id == w.id) }
  ((s.copies.filter fun c => c.frozen == some 0x20 && c.onMove == some page).foldl (fun s c => copyResume s c.id) s).wake
/-- MIGRATION DONE (05 R145 step 6). DEDUCED: an untracked write-back, which has no virtual address, goes again to the line it was
for (log 50). -/
def migrationDone (s : State) (page : Nat) : State :=
  let s := (s.reqs.filter fun r => r.held && !r.ended && pageOf r.line == page).foldl (fun (s : State) r =>
    let s := dropReq s r.id
    match r.for_ with
    | .held ws => ws.foldl replayWrite s
    | .untracked slot => sendReq s slot .wrf r.line false r.req.data r.req.mask r.req.psn none true (.untracked slot)
    | _ => pokeLine s r.line) s
  pageMoved s page

/-- RETRY RESEND (05 R128): the same request again, its timer running on. -/
def retryResend (s : State) (id : Nat) : State :=
  match s.reqs.find? fun r => r.id == id && !r.ended with
  | none => s
  | some r => s.sayTo (spanId s) r.ep (.home r.ep r.kind r.req)

/-- An untracked write-back that the parapet table refuses sets PDENY in the block too (05 R132, 15 R354). -/
def homeAnswerAll (s : State) (a : HomeAns) : State :=
  let was := s.reqs.find? fun r => r.id == a.id && !r.ended
  let s := homeAnswer s a
  match was with
  | some r => match r.for_, a.kind with
    | .untracked slot, .denied => blockWrite s slot 0x50 8 (2 ^ 32) (some .or)
    | _, _ => s.wake
  | none => s

/-! ### The events -/

/-- 05 R129. -/
def execRds (r : HomeReq) (s : State) : Host.Outcome State Fault Refusal := lineRequest .rds r s
/-- 05 R129, R132. -/
def execRdx (r : HomeReq) (s : State) : Host.Outcome State Fault Refusal := lineRequest .rdx r s
/-- 05 R129, R132. -/
def execUpg (r : HomeReq) (s : State) : Host.Outcome State Fault Refusal := lineRequest .upg r s
/-- 05 R129, R132, 01 R32. -/
def execWrf (r : HomeReq) (s : State) : Host.Outcome State Fault Refusal := lineRequest .wrf r s
/-- 03 R82, 05 R129. -/
def execAtf (r : HomeReq) (s : State) : Host.Outcome State Fault Refusal := lineRequest .atf r s
/-- 01 R31, 05 R129. -/
def execNtr (r : HomeReq) (s : State) : Host.Outcome State Fault Refusal := lineRequest .ntr r s
/-- 05 R129, 11 R283. -/
def execPrf (r : HomeReq) (s : State) : Host.Outcome State Fault Refusal := lineRequest .prf r s
/-- 05 R128, R129. -/
def execWbk (r : HomeReq) (s : State) : Host.Outcome State Fault Refusal :=
  event s fun s => if ownReg s r.line then requestArrive s .wbk r else homeWbk s r
/-- 05 R130. -/
def execRecallInv (r : Recall) (s : State) : Host.Outcome State Fault Refusal := event s fun s => recallArrive s 0 r
/-- 05 R130. -/
def execRecallDown (r : Recall) (s : State) : Host.Outcome State Fault Refusal := event s fun s => recallArrive s 1 r
/-- 05 R130. -/
def execRecallCopy (r : Recall) (s : State) : Host.Outcome State Fault Refusal := event s fun s => recallArrive s 2 r
/-- 05 R130. -/
def execRecallDwb (r : Recall) (s : State) : Host.Outcome State Fault Refusal := event s fun s => recallArrive s 3 r
/-- 05 R130, R139. -/
def execRecallAnswer (a : RecallAns) (s : State) : Host.Outcome State Fault Refusal := event s fun s => homeRecallAnswer s a
/-- 05 R127, R132, R135, R136. -/
def execHomeAnswer (a : HomeAns) (s : State) : Host.Outcome State Fault Refusal := event s fun s => homeAnswerAll s a
/-- 05 R128: sent again after 100 ticks. -/
def execRetry (id : Nat) (s : State) : Host.Outcome State Fault Refusal :=
  event s fun s => s.post (s.now + 100) (.retryResend id)
/-- 05 R128. -/
def execRetryResend (id : Nat) (s : State) : Host.Outcome State Fault Refusal := event s fun s => retryResend s id
/-- 05 R145. -/
def execRetryMigrating (id : Nat) (s : State) : Host.Outcome State Fault Refusal := event s fun s => retryMigrating s id
/-- 05 R145. -/
def execMigrationDone (page : Nat) (s : State) : Host.Outcome State Fault Refusal := event s fun s => migrationDone s page

end Sys2Proof.Machine
end

