-- ==== Sys2Proof/Machine/Spanin.lean ====
section
/-! DEFINITION. Cells: heartbeats, suspicion, declarations, death, recovery (05 R122 to R124, R136 to R140), and links
(16 R359, 17 R364). -/
namespace Sys2Proof.Machine

/-- A store to a package register: possible in recovery too (17 R370). -/
def regAccess (s : State) (f : State → State) : Host.Outcome State Fault Refusal :=
  .next (if s.booted || s.recovery then f s else s)

/-! ### Monitors (05 R122) -/

def monitors (s : State) : List Nat :=
  (if bit s.spancfg 61 then [bits s.spancfg 31 10] else []) ++ (if bit s.spancfg 62 then [bits s.spancfg 41 10] else [])
    ++ (if bit s.spancfg 63 then [bits s.spancfg 51 10] else [])
def isMonitor (s : State) : Bool := (monitors s).contains s.self
def incOf (s : State) (cell : Nat) : BitVec 16 := BitVec.ofNat 16 (bits (s.cstate.getD cell 0) 32 16)
def setCell (s : State) (cell st : Nat) : State := { s with cstate := modAt s.cstate cell fun w => putBits w 0 3 st }

/-- A monitor notes that a monitor holds a cell SUSPECT, or no longer does (05 R137). -/
def noteSuspicion (s : State) (ep cell : Nat) (suspect : Bool) : State :=
  if !(monitors s).contains ep then s
  else if !suspect then { s with suspicions := s.suspicions.filter fun x => !(x.ep == ep && x.cell == cell) }
  else if s.suspicions.any fun x => x.ep == ep && x.cell == cell then s
  else State.post { s with suspicions := s.suspicions ++ [⟨cell, ep, s.now⟩] } (s.now + 100000) (.monitorDeclare cell)
/-- A change between ALIVE and SUSPECT is reported to every valid monitor (05 R137). -/
def reportCell (s : State) (cell : Nat) (suspect : Bool) : State :=
  (monitors s).foldl (fun (s : State) m => if m == s.self then noteSuspicion s m cell suspect else s.say (.suspect m cell suspect)) s
def suspectCell (s : State) (cell : Nat) : State :=
  if cellState s cell == 1 then reportCell (setCell s cell 2) cell true else s
/-- A heartbeat of an endpoint of a cell (05 R124). -/
def beatCell (s : State) (cell : Nat) : State :=
  let s : State := { s with beats := (cell, s.now) :: s.beats.filter fun b => b.1 != cell }
  let s := s.post (s.now + 30000) (.heartbeatTimeout cell)
  if cellState s cell == 2 then reportCell (setCell s cell 1) cell false else s
/-- A monitor declares a cell dead: to every endpoint, itself among them (05 R137). -/
def declareDead (s : State) (cell : Nat) : State :=
  (s.say (.death cell (incOf s cell))).post s.now (.deathDeclaration cell (incOf s cell))
/-- MONITOR DECLARE: a majority of the valid monitors has held the cell SUSPECT for 100,000 ticks. -/
def monitorDeclare (s : State) (cell : Nat) : State :=
  let held := (s.suspicions.filter fun x => x.cell == cell && x.since + 100000 ≤ s.now).length
  if isMonitor s && (monitors s).length < 2 * held && (cellState s cell == 1 || cellState s cell == 2) then declareDead s cell else s

/-! ### Death (05 R136, R138, R139) -/

/-- A request outstanding to an endpoint that is lost ends with HOME_LOST; a put, a flag and a posted send report it at a
fence (log 53), and a close ends. -/
def reqLost (s : State) (r : OutReq) : State :=
  match r.for_ with
  | .line .. | .write _ | .untracked _ | .writeback | .held _ => homeAnswer s ⟨r.id, .lost, 0, false, false, 0⟩
  | .put .. => putDone s r (some .lost)
  | .lanes uid entry lanes => (dropReq s r.id).modThread uid fun t => t.modEntry entry fun e => e.fault lanes HOME_LOST 0
  | .send _ grid slot desc dst => sendSettle (addOutcome (dropReq s r.id) grid slot ⟨.lost, desc⟩) slot r.id dst
  | .sendw _ slot _ dst =>
    sendSettle { s with reqs := s.reqs.map fun q => if q.id == r.id then { q with ended := true, kind := .dead 0 } else q } slot r.id dst
  | .close .. => closeAck s r.id
/-- Requests, lines and copies toward endpoints that are lost (05 R136); for a package that has isolated itself the other
spans are lost too (05 R138). -/
def loseEndpoints (s : State) (lost : Nat → Bool) : State :=
  let gone (r : OutReq) : Bool := !r.ended && (if reqSpan s r == spanId s then lost r.ep else s.isolated)
  let s := (s.reqs.filter gone).foldl reqLost s
  let s : State := { s with l2 := s.l2.filter fun L => !lost (lineEp L.line) }
  s.copies.foldl (fun (s : State) c => copyOrphan s lost c) s
/-- What the home does about endpoints that are lost: their requests go, their recalls count as answered (05 R139); a cell that dies
before it answers for a line with no readable entry could have owned it, where its bit is set (05 R141). -/
def homeForget (s : State) (gone : Nat → Bool) : State :=
  let lines := s.home.map fun t => t.req.line
  let mute (t : HomeTxn) : Bool := t.kind == .unread && t.wait.any fun e =>
    gone e && deadCell s (cellOf s e) && s.regions.contains (cellOf s e, regionOf t.req.line)
  let home := ((s.home.filter fun t => !(gone t.req.ep && !t.begun)).map fun t =>
    { t with dropped := t.dropped || gone t.req.ep, wait := t.wait.filter fun e => !gone e, lostOwner := t.lostOwner || mute t })
  lines.foldl homePump { s with home := home }
/-- DEATH DECLARATION (05 R136 to R140): at most once per incarnation. -/
def deathDeclaration (s : State) (cell : Nat) (inc : BitVec 16) : State :=
  if !((cellState s cell == 1 || cellState s cell == 2) && incOf s cell == inc) then s
  else
    let s := setCell s cell 3
    let s : State := { s with suspicions := s.suspicions.filter fun x => x.cell != cell }
    -- its own cell: the package isolates itself from everything (05 R138)
    let own := cell == cellOf s s.self
    let gone (ep : Nat) : Bool := if own then ep != s.self else cellOf s ep == cell
    let s : State := { s with isolated := s.isolated || own }
    let s := homeForget (loseEndpoints s gone) gone
    -- recalls that they wait for, and invalidations that wait for them
    let s : State := { s with recalls := s.recalls.filter fun p => !gone p.r.home }
    let s := (s.invOut.filter fun x => gone x.2).foldl (fun (s : State) x => s.post s.now (.invalidationAck x.1)) s
    (s.post s.now (.recoveryRegionScan cell)).wake
/-- RECOVERY REGION SCAN (05 R140): the lowest flagged region of each stack's map; at the end RDONE. -/
def recoveryScan (s : State) (cell : Nat) : State :=
  let mine := (s.regions.filter fun r => r.1 == cell).map Prod.snd
  match mine.foldl (fun (m : Option Nat) r => some (match m with | none => r | some x => min x r)) none with
  | none => if cellState s cell == 3 && !bit (s.cstate.getD cell 0) 3 then
      State.say { s with cstate := modAt s.cstate cell fun w => putBit w 3 true } (.recovered cell)
    else s
  | some g =>
    -- every line of the region is read, and one that cannot be is settled first (16 R357, R363)
    let bad := (s.ecc.map Prod.fst ++ s.eccFix).filter fun l => regionOf l == g
    let s := bad.foldl (fun s l => (eccRead s l).2) s
    let busy := (s.eccBusy.any fun l => regionOf l == g) || s.home.any fun t => regionOf t.req.line == g && t.kind == .unread
    if busy then s.post (s.now + Config.pollTicks) (.recoveryRegionScan cell)
    else
    let owned := (s.meta_.filter fun m => regionOf m.1 == g && 2 ≤ dState m.2 && dOwner m.2 == cell).map Prod.fst
    if owned.isEmpty then
      State.post { s with regions := s.regions.filter fun r => r != (cell, g) } s.now (.recoveryRegionScan cell)
    else (owned.foldl (fun s l => homeLocal s (.dead cell) l) s).post (s.now + Config.pollTicks) (.recoveryRegionScan cell)

/-! ### Links (16 R359, 17 R364) -/

/-- Whether every link toward an endpoint is down. -/
def cutOff (s : State) (ep : Nat) : Bool := (pathsTo s (spanId s) ep).isEmpty
/-- LINK DOWN: the event is logged, the paths of the port are gone, cells that are cut off are SUSPECT at once. -/
def linkDown (s : State) (port : Nat) : State :=
  if !linkUp s port then s
  else
    let s : State := { s with links := modAt s.links port fun _ => (false, 0) }
    let s := rasLog s 4 port 0
    (List.range 256).foldl (fun (s : State) c =>
      let eps := (List.range (bits s.spancfg 21 10 + 1)).filter fun e => present s e && cellOf s e == c && e != s.self
      if !eps.isEmpty && eps.all (cutOff s) then suspectCell s c else s) s
/-- LINK CRC ERROR: resent; 8 failures running take the link down: `again` says that no flit has come through on the link since the
failure before (log 48). -/
def linkError (s : State) (port : Nat) (again : Bool) : State :=
  let s : State := { s with links := modAt s.links port fun l => (l.1, if again then l.2 + 1 else 1) }
  let s := s.say (.resend port)
  if 8 ≤ (s.links.getD port (false, 0)).2 then s.post s.now (.linkDown port) else s

/-! ### The events -/

/-- 05 R124: FREE to ALIVE. -/
def execCstateWriteAlive (cell : Nat) (s : State) : Host.Outcome State Fault Refusal :=
  regAccess s fun s =>
    if cellState s cell != 0 || 256 ≤ cell then s
    else
      let up (w : Dword) : Dword := putBits (putBits (putBit w 3 false) 0 3 1) 32 16 (bits w 32 16 + 1)
      beatCell { s with cstate := modAt s.cstate cell up } cell
/-- 05 R124: DEAD to FREE, with RDONE = 1. -/
def execCstateWriteFree (cell : Nat) (s : State) : Host.Outcome State Fault Refusal :=
  regAccess s fun s => if cellState s cell == 3 && bit (s.cstate.getD cell 0) 3 then setCell s cell 0 else s
/-- 05 R124, R137: a monitor declares the cell dead. -/
def execCstateWriteDead (cell : Nat) (s : State) : Host.Outcome State Fault Refusal :=
  regAccess s fun s =>
    if isMonitor s && (cellState s cell == 1 || cellState s cell == 2) then declareDead s cell else s
/-- One heartbeat over each live link (05 R137). -/
def sayBeats (s : State) : State :=
  ((List.range 24).filter (linkUp s)).foldl (fun s p => s.say (.heartbeat p)) s
/-- 05 R137: one every 10,000 ticks; the package's own heartbeat counts for its own cell (log 28). -/
def execHeartbeatSend (s : State) : Host.Outcome State Fault Refusal :=
  event s fun s => beatCell ((sayBeats s).post (s.now + 10000) .heartbeatSend) (cellOf s s.self)
/-- 05 R124. -/
def execHeartbeat (ep : Nat) (s : State) : Host.Outcome State Fault Refusal :=
  event s fun s => if shunned s ep then s else beatCell s (cellOf s ep)
/-- 05 R124: no heartbeat for 30,000 ticks. -/
def execHeartbeatTimeout (cell : Nat) (s : State) : Host.Outcome State Fault Refusal :=
  event s fun s => match s.beats.find? fun b => b.1 == cell with
    | some b => if b.2 + 30000 ≤ s.now then suspectCell s cell else s
    | none => suspectCell s cell
/-- 05 R137. -/
def execSuspectReport (ep cell : Nat) (suspect : Bool) (s : State) : Host.Outcome State Fault Refusal :=
  event s fun s => if shunned s ep || !isMonitor s then s else noteSuspicion s ep cell suspect
/-- 05 R137. -/
def execMonitorDeclare (cell : Nat) (s : State) : Host.Outcome State Fault Refusal := event s fun s => monitorDeclare s cell
/-- 05 R136 to R139. -/
def execDeathDeclaration (cell : Nat) (inc : BitVec 16) (s : State) : Host.Outcome State Fault Refusal :=
  event s fun s => deathDeclaration s cell inc
/-- 05 R140. -/
def execRecoveryRegionScan (cell : Nat) (s : State) : Host.Outcome State Fault Refusal := event s fun s => recoveryScan s cell
/-- 16 R359. -/
def execLinkCrcError (f : LinkFail) (s : State) : Host.Outcome State Fault Refusal :=
  event s fun s => linkError s f.port f.again
/-- 16 R359, 17 R364, 05 R137. -/
def execLinkDown (port : Nat) (s : State) : Host.Outcome State Fault Refusal := event s fun s => linkDown s port

end Sys2Proof.Machine
end

