-- ==== Sys2Proof/Machine/Migrate.lean ====
section
/-! DEFINITION. Page classes by PGCMD (05 R133), page migration (05 R142 to R145, 17 R369), and invalidations that arrive
(01 R36 to R38). -/
namespace Sys2Proof.Machine

/-- A page of this package's Spaind memory. -/
def localPage (s : State) (page : Nat) : Bool := page / 2 ^ 26 == s.self && page % 2 ^ 26 < 2 ^ 23
/-- The lines of a page whose metadata word is not zero. -/
def pageMeta (s : State) (page : Nat) : List (Nat × Dword) := s.meta_.filter fun m => pageOf m.1 == page

/-! ### PGCMD -/

/-- A command of PGCMD (05 R133). -/
def pageCommand (s : State) (w : Dword) (sweep : Bool) : State :=
  if bit s.pgcmd 61 then s
  else
    let page := bits w 16 36
    let keep : Dword := w &&& 0x000FFFFFFFFF0F00
    let err := bit s.pgcmd 0 && !bit w 0
    if !localPage s page then { s with pgcmd := keep + 1 }
    else
      let s : State := { s with pgcmd := if err then keep + 1 else keep }
      let idx := page % 2 ^ 26
      let s := pagePut s idx (putBits (pageRec s idx) 8 4 (bits w 8 4))
      if !sweep then s
      else
        let owned := (pageMeta s page).filter fun m => 2 ≤ dState m.2 && !admits s (bits w 8 4) (dOwner m.2)
        if owned.isEmpty then s
        else owned.foldl (fun s m => homeLocal s .sweep m.1) { s with pgcmd := putBit s.pgcmd 61 true }

/-! ### Moves (05 R143 to R145) -/

/-- A page's counters begin afresh; its class stays. -/
def zeroCounts (s : State) (page : Nat) : State :=
  let idx := page % 2 ^ 26
  pagePut s idx (putBits (pageRec s idx) 12 52 0)
def State.modMove (s : State) (page : Nat) (f : Move → Move) : State :=
  { s with moves := s.moves.map fun m => if m.page == page then f m else m }
/-- The end of a move: writers are released, those of this package too (05 R145); an isolated package, or a DEAD cell, is told nothing
(05 R138, R139). -/
def moveEnd (s : State) (m : Move) : State :=
  let s : State := { s with moves := s.moves.filter fun x => x.page != m.page }
  let s := (m.waiters.filter fun e => !shunned s e).foldl (fun s e => s.say (.migrationDone e m.page)) s
  pageMoved (zeroCounts s m.page) m.page
/-- The compare-and-swap of step 4, as a write of the device (05 R145). -/
def Move.swap (m : Move) : L2Write :=
  deviceWrite 0 0 m.pteAt 8 0 false false (some ⟨.cas, m.pteAt % 128, 8, m.pte, putBits m.pte 16 36 m.new, false⟩)
/-- A move is abandoned: N goes back to its free ring. -/
def moveAbandon (s : State) (m : Move) : State :=
  let ep := m.new / 2 ^ 26
  let s := deviceDrop s m.swap
  moveEnd (if shunned s ep then s else s.say (.pageBack ep m.new)) m

/-- The first package of a cell that gives a page (05 R144). -/
def takePage (s : State) (cell : Nat) : Option Nat × State :=
  ((List.range (bits s.spancfg 21 10 + 1)).filter fun e => present s e && !isHost s e && cellOf s e == cell && e != s.self).foldl
    (fun (r : Option Nat × State) e => match r with
      | (some p, s) => (some p, s)
      | (none, s) =>
        let got := Config.givePage s.free
        (got.map fun n => e * 2 ^ 26 + n.toNat, { s with free := s.free + 1 })) (none, s)

/-- MIGRATION START. DESIGN CHOICE: the engine's reads and writes are timed by the remote timeout of context entry 0 (log 72).
The proposal is judged by the back-pointer entry and the PTE (05 R144). -/
def moveStart (s : State) (page : Nat) : State :=
  if !localPage s page || s.moves.any (fun m => m.page == page) || 4 ≤ s.moves.length || !bit s.migctl 0 then s
  else
    let idx := page % 2 ^ 26
    let cell := bits (pageRec s idx) 56 8
    let again (s : State) : State := s.post (s.now + Config.pollTicks) (.migrationStart (.own page))
    let bp := bits s.migbpt 16 36 * 65536 + 16 * idx
    match physRead s 0 bp 16 false false with
    | (.pending, s) => again s
    | (.lost, s) => zeroCounts s page
    | (.data d psn, s) =>
      let w0 : Dword := d.truncate 64
      let w1 : Dword := BitVec.ofNat 64 (d.toNat / 2 ^ 64)
      if psn || !bit w0 0 then zeroCounts s page
      else
        let at_ := bits w0 3 49 * 8
        match physRead s 0 at_ 8 false false with
        | (.pending, s) => again s
        | (.lost, s) => zeroCounts s page
        | (.data d psn, s) =>
          let pte : Dword := d.truncate 64
          if psn || !bit pte 0 || !bit pte 1 || malformed 0 pte || bit pte 5 || bit pte 8 || !bit pte 9 || bits pte 6 2 != 0
              || bits pte 16 36 != page then zeroCounts s page
          else match takePage s cell with
            | (none, s) => zeroCounts s page
            | (some n, s) =>
              let m : Move := ⟨page, n, at_, pte, bits w1 0 16, bits w1 16 41 * 65536, 1, [], []⟩
              State.post { s with moves := s.moves ++ [m] } s.now (.migrationCopyPage (.own page))

/-- The lines of a page with their PSN, from the home's own L2 or memory. -/
def pageLines (s : State) (page : Nat) : List (LineData × Bool) :=
  (List.range 512).map fun i => (homeData s (page * 512 + i), homePsn s (page * 512 + i))
/-- MIGRATION COPY PAGE: steps 2 to 5 (05 R145). -/
def moveCopy (s : State) (page : Nat) : State :=
  match s.moves.find? fun m => m.page == page with
  | none => s
  | some m =>
    let again (s : State) : State := s.post (s.now + Config.pollTicks) (.migrationCopyPage (.own page))
    let recallAll (s : State) (least : Nat) : State :=
      ((pageMeta s page).filter fun x => least ≤ dState x.2).foldl (fun s x => homeLocal s .localWrite x.1) s
    let bad := (s.ecc.map Prod.fst ++ s.eccFix).filter fun l => pageOf l == page
    -- a compare-and-swap that has been performed, or has left for the PTE's home, completes step 4
    let swapped := m.step == 4 && ((s.devDone.any fun d => d.1 == m.swap.asDevice) || s.l2w.any fun w => w.asked && w.asDevice == m.swap.asDevice)
    -- a package that has isolated itself writes to no other cell (05 R138)
    if m.step < 5 && !swapped && shunned s (m.new / 2 ^ 26) then moveAbandon s m
    else match m.step with
      | 1 => again (recallAll (s.modMove page fun m => { m with step := 2 }) 1)
      | 2 =>
        -- writing requests that the home began before step 1 are awaited, and a line that one made EXC is recalled too; every line is
        -- read with its check (16 R357)
        if s.home.any fun t => pageOf t.req.line == page
            && (t.kind == .localWrite || t.kind == .unread || t.begun && t.kind.owning) then again s
        else if (pageMeta s page).any fun x => 2 ≤ dState x.2 then again (recallAll s 2)
        else if !bad.isEmpty then again (bad.foldl (fun s l => (eccRead s l).2) s)
        else if s.eccBusy.any fun l => pageOf l == page then again s
        else
          let ok := Config.pageWritten s.free
          let s : State := { s with free := s.free + 1 }
          if !ok then moveAbandon s m
          else
            let s := s.say (.pageWrite (m.new / 2 ^ 26) m.new (pageLines s page) (bits (pageRec s (page % 2 ^ 26)) 8 4))
            (s.modMove page fun m => { m with step := 4 }).post s.now (.migrationCopyPage (.own page))
      | 4 =>
        match takeExpired s (m.pteAt / 128) true with
        | (some _, s) => moveAbandon s m
        | (none, s) =>
          match deviceStore s m.swap with
          | (.done r, s) =>
            if r.p || r.v != m.pte then moveAbandon s m
            else
              let eps := (List.range (bits s.spancfg 21 10 + 1)).filter fun e => present s e && !isHost s e
              let r := eps.foldl (fun (r : List Nat × State) e =>
                let (id, s) := sendInval r.2 e m.ctx (.page m.va)
                (id :: r.1, s)) ([], s)
              (r.2.modMove page fun m => { m with step := 5, acks := r.1 }).post s.now (.migrationFinish (.own page))
          | (.lost, s) => moveAbandon s m
          | (_, s) => again s
      | _ => s
/-- MIGRATION FINISH: once every acknowledgement is in and the released ring has room, step 6 (05 R145, 17 R369). -/
def moveFinish (s : State) (page : Nat) : State :=
  match s.moves.find? fun m => m.page == page with
  | none => s
  | some m =>
    if m.step != 5 || !m.acks.isEmpty then s
    else
      let again (s : State) : State := s.post (s.now + Config.pollTicks) (.migrationFinish (.own page))
      let head := bits s.migrht 32 32
      let size := 2 ^ bits s.migrel 0 5
      if (head + 2 ^ 32 - bits s.migrht 0 32) % 2 ^ 32 == size then again s
      else match physWrite s 0 (bits s.migrel 12 40 * 4096 + 8 * (head % size)) 8 (page * 65536) false false none with
        | (.done _, s) => moveEnd { s with migrht := putBits s.migrht 32 32 (head + 1) } m
        | (.lost, s) => moveEnd s m
        | (_, s) => again s
/-! ### Pages of this package's free ring that other packages move to (05 R143 to R145, 17 R369) -/

/-- Where an entry of the free ring lies. -/
def freeRing (s : State) (i : Nat) : Nat := bits s.migfree 12 40 * 4096 + 8 * (i % 2 ^ bits s.migfree 0 5)
/-- Another package's engine asks for a page: the one at TAIL, or none where HEAD = TAIL (17 R369). DEDUCED: an entry that cannot be
read is not taken (log 49). -/
def moveGive (s : State) (ep : Nat) : State :=
  let tail := bits s.migfht 0 32
  if shunned s ep then s
  else if bits s.migfht 32 32 == tail then s.say (.pageGive ep none)
  else match takeExpired s (freeRing s tail / 128) false with
    | (some _, s) => s.say (.pageGive ep none)
    | (none, s) => match physRead s 0 (freeRing s tail) 8 false false with
      | (.pending, s) => s.post (s.now + Config.pollTicks) (.migrationStart (.give ep))
      | (.lost, s) => s.say (.pageGive ep none)
      | (.data d psn, s) =>
        if psn then s.say (.pageGive ep none)
        else State.say { s with migfht := putBits s.migfht 0 32 (tail + 1) } (.pageGive ep (some (bits (d.truncate 64) 16 36)))
/-- Another package's engine writes the page that it was given (05 R145 step 3): its lines are UNC with their PSN, its record has zero
counters and the class that comes with them. What comes from a DEAD cell is discarded (05 R139). -/
def moveTaken (s : State) (ep page : Nat) (lines : List (LineData × Bool)) (pclass : Nat) : State :=
  if shunned s ep || !localPage s page then s
  else
    let put (s : State) (x : Nat × LineData × Bool) : State :=
      let line := page * 512 + x.1
      dirSet (homeStore s line x.2.1 x.2.2) line UNC 0 []
    pagePut ((mapFrom (fun i x => (i, x)) 0 (lines.take 512)).foldl put s) (page % 2 ^ 26) (BitVec.ofNat 64 (pclass % 16 * 256))
/-- Another package's engine gives a page back (05 R145). DEDUCED: it stands in the ring as the next to be taken, at TAIL − 1; where the
ring is full it waits for room (log 49). What comes from a DEAD cell is discarded (05 R139). -/
def moveBack (s : State) (ep page : Nat) : State :=
  let tail := bits s.migfht 0 32
  let at_ := (tail + 2 ^ 32 - 1) % 2 ^ 32
  let again (s : State) : State := s.post (s.now + Config.pollTicks) (.migrationFinish (.back ep page))
  if shunned s ep || !localPage s page then s
  else if (bits s.migfht 32 32 + 2 ^ 32 - tail) % 2 ^ 32 == 2 ^ bits s.migfree 0 5 then again s
  else match takeExpired s (freeRing s at_ / 128) true with
    | (some _, s) => s
    | (none, s) => match physWrite s 0 (freeRing s at_) 8 (page * 65536) false false none with
      | (.done _, s) => { s with migfht := putBits s.migfht 0 32 at_ }
      | (.lost, s) => s
      | (_, s) => again s
/-- MIG WINDOW BOUNDARY (05 R142): every counter is halved. DESIGN CHOICE: the boundaries are the multiples of the window
length in ticks, and a new WINLOG counts from the boundary that was due (log 76). -/
def windowHalve (s : State) : State :=
  let half (w : Dword) : Dword :=
    putBits (putBits (putBits w 44 12 (bits w 44 12 / 2)) 24 12 (bits w 24 12 / 2)) 12 12 (bits w 12 12 / 2)
  let log := bits s.migctl 32 8
  let len := 2 ^ (if 10 ≤ log && log ≤ 30 then log else 20)
  State.post { s with pages := (s.pages.map fun p => (p.1, half p.2)).filter fun p => p.2 != 0 } ((s.now / len + 1) * len) .migWindowBoundary

/-! ### Invalidations that arrive (01 R36 to R38) -/

/-- An acknowledgement of an invalidation that this package sent: to a group, to TLBICMD, to a move. -/
def invalAcked (s : State) (id : Nat) : State :=
  let thread (t : Thread) : Thread := { t with invs := t.invs.filter fun x => x != id }
  let s : State := { s with
    threads := s.threads.map thread
    cur := thread s.cur
    invOut := s.invOut.filter fun x => x.1 != id
    tlbiOpen := s.tlbiOpen.filter fun x => x != id
    moves := s.moves.map fun m => { m with acks := m.acks.filter fun x => x != id } }
  let s := if s.tlbiOpen.isEmpty then
      s.tlbiRead.foldl (fun s r => s.say (.registerAnswer r 1)) { s with tlbiRead := [] }
    else s
  (s.moves.foldl (fun s m => if m.step == 5 && m.acks.isEmpty then s.post s.now (.migrationFinish (.own m.page)) else s) s).wake
/-- The page that a PAGE invalidation drops: the largest that a TLB of the package translates its address by, else of 64 KiB
(log 12): base and size. -/
def droppedPage (s : State) (m : InvMsg) (va : Nat) : Nat × Nat :=
  let hits := s.cores.flatMap fun k => (k.tlb ++ k.itlb ++ k.ctlb ++ k.tlb2).filter (invHitsTlb m s)
  let size := hits.foldl (fun n e => max n e.size) (2 ^ 16)
  (va / size * size, size)
/-- Whether an access of a context entry by a virtual address was translated through what an invalidation drops. -/
def invHits (s : State) (m : InvMsg) (slot va : Nat) : Bool :=
  invHitsSlot m s slot && (match m.kind with
    | .page a => let p := droppedPage s m a; decide (p.1 ≤ va ∧ va < p.1 + p.2)
    | _ => true)
/-- The virtual lines that a copy reads. -/
def Copy.lines (c : Copy) : List Nat := c.reading.map fun r => r.1
/-- A store buffer entry is sent or may be: one that a move holds, or that is to be translated afresh, holds no translation (01
R39). -/
def SbEntry.translated (e : SbEntry) : Bool := e.onMove.isNone && !e.again && !e.handed
/-- INVALIDATION: at this instant every matching entry stops translating; what was under way is noted (01 R38): what was
translated by what is dropped, and walks on the path of the address. -/
def invalArrive (s : State) (m : InvMsg) : State :=
  if m.ep != s.self && shunned s m.ep then s
  else
    let hit (slot va : Nat) : Bool := invHits s m slot va
    let onPath (w : Walk) : Bool := invHitsSlot m s w.slot && (match m.kind with
      | .page a => w.va * 65536 / 2 ^ 42 == a / 2 ^ 42
      | _ => true)
    let v : Inval := {
      id := s.seq, m := m
      sbs := s.cores.flatMap fun k =>
        (k.sb.filter fun e => e.translated && (hit e.slot e.va || e.also.any fun a => hit a.1 a.2)).map SbEntry.id
      loads := s.cores.flatMap fun k => k.loads.filter fun l => hit l.slot l.va
      writes := (s.l2w.filter fun w => hit w.slot w.va && (match w.who with
        | .none | .device _ => w.va != 0
        | _ => true)).map L2Write.id
      walks := (s.walks.filter onPath).map Walk.id
      fetches := (s.allThreads.filter fun t => t.fetching.any fun f => hit (s.slotOf t) f.1.toNat).map Thread.uid
      reads := s.copies.flatMap fun c => (c.lines.filter fun l => hit c.slot (l * 128)).map fun l => (c.id, l)
      devs := s.devReads.filter fun r => hit r.1 r.2.1 }
    let s := invalidate s m
    { s with seq := s.seq + 1, invals := s.invals ++ [v] }
/-- What an invalidation still waits for. -/
def Inval.prune (s : State) (v : Inval) : Inval :=
  { v with
    sbs := v.sbs.filter fun k => s.cores.any fun c => c.sb.any fun e => e.id == k && e.translated
    loads := v.loads.filter fun l => s.cores.any fun c => c.loads.any fun k => k.uid == l.uid && k.entry == l.entry && k.lane == l.lane
    writes := v.writes.filter fun k => s.l2w.any fun w => w.id == k
    walks := v.walks.filter fun k => s.walks.any fun w => w.id == k
    fetches := v.fetches.filter fun u => (s.thread? u).any fun t => t.fetching.any fun f => f.1 == t.pc
    reads := v.reads.filter fun r => (s.copy? r.1).any fun c => c.lines.contains r.2
    devs := v.devs.filter fun r => s.devReads.contains r }
def Inval.over (v : Inval) : Bool :=
  v.sbs.isEmpty && v.loads.isEmpty && v.writes.isEmpty && v.walks.isEmpty && v.fetches.isEmpty && v.reads.isEmpty
    && v.devs.isEmpty
/-- What has ended leaves the invalidations that wait for it; one that waits for nothing more is acknowledged in this tick. -/
def invalSettle (s : State) : State :=
  if s.invals.isEmpty then s
  else
    let s : State := { s with invals := s.invals.map (Inval.prune s) }
    (s.invals.filter Inval.over).foldl (fun (s : State) v => s.post s.now (.invalidationAck v.id)) s
/-- INVALIDATION ACK: this package acknowledges when what it noted is performed or has faulted; or one that it sent is
acknowledged. -/
def invalAck (s : State) (id : Nat) : State :=
  match s.invals.find? fun v => v.id == id with
  | none => invalAcked s id
  | some v =>
    if !(v.prune s).over then s
    else
      let s : State := { s with invals := s.invals.filter fun x => x.id != id }
      if v.m.ep == s.self then invalAcked s v.m.id
      else if shunned s v.m.ep then s else s.say (.invalAck v.m.ep v.m.id)

/-! ### The events -/

/-- 05 R133. -/
def execPgcmdGo (w : Dword) (s : State) : Host.Outcome State Fault Refusal := regAccess s fun s => pageCommand s w false
/-- 05 R133. -/
def execPgcmdSweep (w : Dword) (s : State) : Host.Outcome State Fault Refusal := regAccess s fun s => pageCommand s w true
/-- 05 R144, R145. -/
def execMigrationStart (m : MoveStart) (s : State) : Host.Outcome State Fault Refusal :=
  event s fun s => match m with
    | .own page => moveStart s page
    | .give ep => moveGive s ep
/-- 05 R145. -/
def execMigrationCopyPage (m : MoveCopy) (s : State) : Host.Outcome State Fault Refusal :=
  event s fun s => match m with
    | .own page => moveCopy s page
    | .write ep page lines pclass => moveTaken s ep page lines pclass
/-- 05 R145, 17 R369. -/
def execMigrationFinish (m : MoveFinish) (s : State) : Host.Outcome State Fault Refusal :=
  event s fun s => match m with
    | .own page => moveFinish s page
    | .back ep page => moveBack s ep page
/-- 05 R142. -/
def execMigWindowBoundary (s : State) : Host.Outcome State Fault Refusal := event s windowHalve
/-- 01 R36, R37. -/
def execInvalidation (m : InvMsg) (s : State) : Host.Outcome State Fault Refusal := event s fun s => invalArrive s m
/-- 01 R38. -/
def execInvalidationAck (id : Nat) (s : State) : Host.Outcome State Fault Refusal := event s fun s => invalAck s id

end Sys2Proof.Machine
end

