-- ==== Sys2Proof/Machine/Ras.lean ====
section
/-! DEFINITION. Memory errors (16 R357, R358), the background scrub (02 R65), power (17 R368), ageing (16 R361) and the
in-field test (14 R335). -/
namespace Sys2Proof.Machine

/-! ### Memory errors -/

/-- ECC RETRY (16 R357, 05 R141): the verdict 100 ticks after an uncorrectable read. -/
def eccVerdict (s : State) (line : Nat) : State :=
  if !s.eccBusy.contains line then s
  else
    let bad := s.ecc.find? fun e => e.1 == line
    let data := (bad.map fun e => e.2.1).getD false
    let dir := (bad.map fun e => e.2.2).getD false
    let s : State := { s with eccBusy := s.eccBusy.filter fun l => l != line, ecc := s.ecc.filter fun e => e.1 != line }
    let src := stackOf line
    if dir then
      let s := rasLog (rasCount s 8 16) 3 src line
      let (id, s) := s.fresh
      let t : HomeTxn := ⟨id, .unread, ⟨id, s.self, line, false, 0, 0, data, none, false⟩, [], false, 0, none, false, [], false, 0, none, false, s.now,
        deadOwner s line⟩
      -- after a request of the line that the home is answering, before those that wait
      let later (u : HomeTxn) : Bool := u.req.line == line && !u.begun
      pokeLine { s with home := s.home.takeWhile (fun u => !later u) ++ t :: s.home.dropWhile fun u => !later u } line
    else if data then
      -- the data bytes stay as they were read: no value that the program knows (log 3)
      let s := rasLog (rasCount s 8 16) 2 src line
      let d := Config.freeLine s.free
      let s : State := { s with free := s.free + 1 }
      pokeLine (inArrivalOrder (homeSetPsn (memPut s line d) line true) line) line
    else pokeLine (inArrivalOrder (rasLog (rasCount s 24 16) 1 src line) line) line

/-- SCRUB PASS (02 R65, 16 R357): its reads are checked, and a cell that owns no line of the region leaves its map; while a line of the
region has still to be read again, or its entry is unreadable, the pass waits for it (05 R141). -/
def scrubPass (s : State) (region : Nat) : State :=
  let s := ((s.ecc.map Prod.fst ++ s.eccFix).filter fun l => regionOf l == region).foldl (fun s l => (eccRead s l).2) s
  let owns (cell : Nat) : Bool := s.meta_.any fun m => regionOf m.1 == region && 2 ≤ dState m.2 && dOwner m.2 == cell
  if (s.eccBusy.any fun l => regionOf l == region) || s.home.any fun t => regionOf t.req.line == region && t.kind == .unread then
    s.post (s.now + Config.pollTicks) (.scrubPass region)
  else { s with regions := s.regions.filter fun r => r.2 != region || owns r.1 }

/-! ### Power -/

/-- POWER ADJUST (17 R368). -/
def powerAdjust (s : State) : State :=
  let p := Config.freePower s.free
  let cap := max 800 (min 3200 (bits s.pwrctl 32 16))
  let b := bits s.pwrctl 16 8
  let b := if bit s.pwrctl 0 then b
    else if cap < p then max 16 (b - 8)
    else if p * 10 < cap * 9 then min 192 (b + 8)
    else b
  (State.post { s with free := s.free + 1, pwrctl := putBits s.pwrctl 16 8 b } (s.now + 100000) .powerAdjust).post s.now .dispatchRetry

/-! ### In-field test (14 R335) -/

/-- A core that has no resident team, no stream and no copy slot in use. -/
def coreFree (s : State) (core : Nat) : Bool :=
  (teamsOn s core).isEmpty && (streamOn s core).isNone && slotsUsed s core == 0
def testStart (s : State) (core : Nat) : State :=
  match (s.core core).test with
  | .draining _ =>
    if coreFree s core then
      (s.modCore core fun k => { k with test := .testing s.now }).post (s.now + 200000) (.infieldTestEnd core)
    else s.post (s.now + Config.pollTicks) (.infieldTestStart core)
  | _ => s
/-- Draining ends. -/
def testOver (s : State) (core : Nat) : State := (s.modCore core fun k => { k with test := .none }).post s.now .dispatchRetry

/-! ### The events -/

/-- 16 R357. -/
def execEccRetry (line : Nat) (s : State) : Host.Outcome State Fault Refusal := event s fun s => eccVerdict s line
/-- 02 R65, 16 R357. -/
def execScrubPass (region : Nat) (s : State) : Host.Outcome State Fault Refusal := event s fun s => scrubPass s region
/-- 16 R358. -/
def execRaspop (s : State) : Host.Outcome State Fault Refusal := regAccess s fun s => { s with raslog := s.raslog.drop 1 }
/-- 17 R368. -/
def execPowerAdjust (s : State) : Host.Outcome State Fault Refusal := event s powerAdjust
/-- 17 R368. -/
def execHotLimit (s : State) : Host.Outcome State Fault Refusal :=
  event s fun s => State.post { s with pwrctl := putBit (putBits s.pwrctl 16 8 16) 0 true } s.now .dispatchRetry
/-- 17 R368. -/
def execHotLimitClear (s : State) : Host.Outcome State Fault Refusal :=
  event s fun s => { s with pwrctl := putBit s.pwrctl 0 false }
/-- 16 R361: the monitors' figures; WARN sets once. -/
def execAgeRecompute (die : Nat) (slack : BitVec 8) (eolh : Word) (s : State) : Host.Outcome State Fault Refusal :=
  event s fun s =>
    let was := bit (s.ages.getD die 0) 63
    let warn := was || decide (eolh.toNat < 8760)
    let w : Dword := BitVec.ofNat 64 (warn.toNat * 2 ^ 63 + slack.toNat * 2 ^ 48 + eolh.toNat)
    let s : State := { s with ages := setAt s.ages die w }
    if warn && !was && die < 6 then rasLog s 6 die 0 else s
/-- 14 R335: the controller marks a core draining, one at a time; a request that waits is tried again (14 R324). -/
def execInfieldTestDrain (core : Nat) (s : State) : Host.Outcome State Fault Refusal :=
  event s fun s =>
    if s.cores.any fun k => k.test != .none then s
    else (((s.modCore core fun k => { k with test := .draining s.now }).post s.now (.infieldTestStart core)).post
      (s.now + 25000000) (.infieldTestTimeout core)).post s.now .dispatchRetry
/-- 14 R335. -/
def execInfieldTestStart (core : Nat) (s : State) : Host.Outcome State Fault Refusal := event s fun s => testStart s core
/-- 14 R335. -/
def execInfieldTestEnd (core : Nat) (s : State) : Host.Outcome State Fault Refusal :=
  event s fun s => match (s.core core).test with
    | .testing _ => testOver s core
    | _ => s
/-- 14 R335: not free within 25,000,000 ticks. -/
def execInfieldTestTimeout (core : Nat) (s : State) : Host.Outcome State Fault Refusal :=
  event s fun s => match (s.core core).test with
    | .draining since => if since + 25000000 ≤ s.now then testOver (s.say (.report core)) core else s
    | _ => s

end Sys2Proof.Machine
end

