-- ==== Sys2Proof/Machine/Saveimage.lean ====
section
/-! DEFINITION. Save areas (15 R355, R356) as lists of fields, each with its place and how it is read from a group, a stream
or a team and put back; from them the bytes that an eviction writes and what a restore takes from memory. -/
namespace Sys2Proof.Machine

/-- A field of an area: first byte, length in bytes, its value, and the state with a value put there. -/
structure Slot (α : Type) where
  off : Nat
  len : Nat
  get : α → Nat
  put : Nat → α → α

/-- A field that a restore does not take from memory: what it says stands in the machine's own record (log 30). -/
def Slot.show {α : Type} (off len : Nat) (get : α → Nat) : Slot α := ⟨off, len, get, fun _ x => x⟩

/-- Values of n bits each, packed from bit 0 (a list is never longer than its field). -/
def packBits (n : Nat) : List Nat → Nat
  | [] => 0
  | x :: r => x % 2 ^ n + 2 ^ n * packBits n r
def field (v lo len : Nat) : Nat := v / 2 ^ lo % 2 ^ len
/-- The non-zero bytes of a number of 2^d bytes. -/
def cellsOf : Nat → Nat → Nat → Mem
  | 0, off, v => if v % 256 == 0 then [] else [(off, BitVec.ofNat 8 v)]
  | d + 1, off, v => if v == 0 then [] else cellsOf d off (v % 256 ^ (2 ^ d)) ++ cellsOf d (off + 2 ^ d) (v / 256 ^ (2 ^ d))
/-- The number that the n bytes from a hold, by halves. -/
def memNat (m : Mem) (a n : Nat) : Nat := Mem.load m a n

/-! ### Wake conditions (15 R356 at 0x0600) -/

/-- The row of 14 R329, counted from 0. -/
def waitRow : Wait → Nat
  | .none => 3
  | .yield => 0
  | .wait .. => 1
  | .bara .. => 2
  | .watermark .. => 3
  | .replay => 4
  | .fence _ => 5
  | .engine _ => 6
  | .seqgo _ => 7
  | .launch => 8
  | .streamTable _ => 9
  | .sendw _ => 10
/-- A group without a wait is at the blocking point of its oldest entry: what the replay buffer holds, a stream table entry or an
RPUTF slot, or a watermark. -/
def blockRow (t : Thread) : Nat :=
  match t.wait with
  | .none => match t.log.find? fun e => e.unperformed != 0 with
    | none => 3
    | some e =>
      if e.moving != 0 || e.held || e.flight != 0 || !e.faults.isEmpty then 4
      else if e.op == .rput || e.op == .rputf then 9
      else 3
  | w => waitRow w
/-- The wake condition; `mark` is the number of the watermark that an access of the group waits behind. -/
def wakeWords (mark : Nat) (t : Thread) : Nat :=
  match t.wait with
  | .none => if blockRow t == 3 then mark * 2 ^ 640 else 0
  | .wait pairs all left _ =>
    packBits 64 (pairs.flatMap fun p => [p.1.toNat, p.2.toNat]) + (all.toNat + (pairs.length - 1) * 2) * 2 ^ 512 + left * 2 ^ 576
  | .bara a g _ => a.toNat * 2 ^ 640 + g.toNat * 2 ^ 704
  | .watermark _ w => w * 2 ^ 640
  | _ => 0
/-- The pairs and the remaining timeout of a WAIT, taken back. -/
def putWake (v : Nat) (t : Thread) : Thread :=
  match t.wait with
  | .wait pairs all _ last =>
    let ps := (List.range pairs.length).map fun i => ((BitVec.ofNat 64 (field v (128 * i) 64) : Dword), (BitVec.ofNat 64 (field v (128 * i + 64) 64) : Dword))
    { t with wait := .wait ps all (field v 576 64) last }
  | _ => t

/-! ### Registers -/

def ccNat (c : CC) : Nat :=
  c.z.toNat + c.n.toNat * 2 + c.c.toNat * 4 + c.v.toNat * 8 + c.mz.toNat * 16 + c.mf.toNat * 32 + c.tmo.toNat * 64 + c.nl.toNat * 128
def natCc (v : Nat) : CC :=
  let b (i : Nat) : Bool := v / 2 ^ i % 2 == 1
  ⟨b 0, b 1, b 2, b 3, b 4, b 5, b 6, b 7⟩
def packS (r : List SVal) : Nat := packBits 64 (r.map fun x => x.v.toNat)
def packP (r : List SVal) : Nat := packBits 1 (r.map fun x => x.p.toNat)
def unpackS (v : Nat) (r : List SVal) : List SVal := mapFrom (fun i (x : SVal) => { x with v := BitVec.ofNat 64 (field v (64 * i) 64) }) 0 r
def unpackP (v : Nat) (r : List SVal) : List SVal := mapFrom (fun i (x : SVal) => { x with p := field v i 1 == 1 }) 0 r
def mpertWords (m : Option (Dword × Dword)) : Nat :=
  match m with
  | some (a, b) => a.toNat % 2 ^ 63 + 2 ^ 63 + b.toNat * 2 ^ 64
  | none => 0
def wordsMpert (v : Nat) : Option (Dword × Dword) :=
  if field v 63 1 == 1 then some (BitVec.ofNat 64 (field v 0 63), BitVec.ofNat 64 (field v 64 64)) else none

/-- One operand log entry: 40 bytes of word, address and masks, then addresses, data and P bits (log 30 gives the places). -/
def logNat (e : LogEntry) : Nat :=
  e.insn.toNat + e.pc.toNat * 2 ^ 64 + e.performed.toNat * 2 ^ 128 + e.faulted.toNat * 2 ^ 224
    + packBits 64 (e.addrs.map BitVec.toNat) * 2 ^ 320 + packBits 128 (e.data.map BitVec.toNat) * 2 ^ 6464 + e.dataP.toNat * 2 ^ 18752
def natLog (v : Nat) (e : LogEntry) : LogEntry :=
  { e with
    performed := BitVec.ofNat 96 (field v 128 96)
    addrs := mapFrom (fun i (_ : Dword) => BitVec.ofNat 64 (field v (320 + 64 * i) 64)) 0 e.addrs
    data := mapFrom (fun i (_ : BitVec 128) => BitVec.ofNat 128 (field v (6464 + 128 * i) 128)) 0 e.data
    dataP := BitVec.ofNat 96 (field v 18752 96) }

/-- The fields of a group save area (15 R356); `regs` is REGS of the launch record, `mark` the watermark that it waits behind. -/
def groupSlots (regs mark : Nat) : List (Slot Thread) :=
  [ ⟨0x00, 8, fun t => t.pc.toNat, fun v t => { t with pc := BitVec.ofNat 64 v }⟩,
    ⟨0x08, 8, fun t => ccNat t.cc + t.wbase / 16 * 2 ^ 8 + t.rm.toNat * 2 ^ 12 + blockRow t * 2 ^ 20 + regs * 2 ^ 24,
      fun v t => { t with cc := natCc v, wbase := field v 8 4 * 16, rm := BitVec.ofNat 2 (field v 12 2) }⟩,
    ⟨0x10, 24, fun t => packBits 64 ((List.range 3).map fun k => (maskWord t.live k).toNat),
      fun v t => { t with live := BitVec.ofNat 96 (field v 0 32 + field v 64 32 * 2 ^ 32 + field v 128 32 * 2 ^ 64) }⟩,
    ⟨0x28, 8, fun t => t.sig.toNat, fun v t => { t with sig := BitVec.ofNat 32 v }⟩,
    ⟨0x30, 8, fun t => t.lct, fun v t => { t with lct := v }⟩,
    ⟨0x38, 8, fun t => t.mfw.toNat, fun v t => { t with mfw := BitVec.ofNat 64 v }⟩,
    ⟨0x40, 16, fun t => mpertWords t.mpert, fun v t => { t with mpert := wordsMpert v }⟩,
    ⟨0x50, 64, fun t => packBits 64 ([t.trapcode.toNat, t.trappc.toNat, t.trapaddr.toNat, t.trapnpc.toNat]
        ++ t.trapmask.map BitVec.toNat ++ [t.trapLog.toNat * 2 + t.trapDrop.toNat]),
      fun v t => { t with
        trapcode := BitVec.ofNat 64 (field v 0 64), trappc := BitVec.ofNat 64 (field v 64 64)
        trapaddr := BitVec.ofNat 64 (field v 128 64), trapnpc := BitVec.ofNat 64 (field v 192 64)
        trapmask := (List.range 3).map fun k => BitVec.ofNat 32 (field v (256 + 64 * k) 32)
        trapLog := field v 449 1 == 1, trapDrop := field v 448 1 == 1 }⟩,
    -- DISP: the held entries; what software answers is read by `putDisp`
    Slot.show 0x90 8 fun t => packBits 1 (t.log.map fun e => e.held.toNat),
    ⟨0x100, 256, fun t => packS t.sregs, fun v t => { t with sregs := unpackS v t.sregs }⟩,
    ⟨0x200, 128, fun t => packS t.banked, fun v t => { t with banked := unpackS v t.banked }⟩,
    ⟨0x280, 8, fun t => packP t.sregs + packP t.banked * 2 ^ 32,
      fun v t => { t with sregs := unpackP v t.sregs, banked := unpackP (v / 2 ^ 32) t.banked }⟩,
    ⟨0x300, 768, fun t => packBits 192 (t.preds.map fun p => p.v.toNat + p.p.toNat * 2 ^ 96),
      fun v t => { t with preds := mapFrom (fun i (_ : PredReg) => ⟨BitVec.ofNat 96 (field v (192 * i) 96), BitVec.ofNat 96 (field v (192 * i + 96) 96)⟩) 0 t.preds }⟩,
    ⟨0x600, 128, wakeWords mark, putWake⟩,
    ⟨0x1000, 20480, fun t => packBits 20480 (t.log.map logNat),
      fun v t => { t with log := mapFrom (fun i (e : LogEntry) => natLog (field v (20480 * i) 20480) e) 0 t.log }⟩,
    ⟨0x6000, 3072, fun t => packBits 96 (t.vregs.map fun r => packBits 1 (r.map fun x => x.p.toNat)),
      fun v t => { t with vregs := mapFrom (fun i (r : List Lane) =>
        mapFrom (fun L (x : Lane) => { x with p := field v (96 * i + L) 1 == 1 }) 0 r) 0 t.vregs }⟩,
    ⟨0x8000, 98304, fun t => packBits 3072 (t.vregs.map fun r => packBits 32 (r.map fun x => x.v.toNat)),
      fun v t => { t with vregs := mapFrom (fun i (r : List Lane) =>
        let w := field v (3072 * i) 3072
        mapFrom (fun L (x : Lane) => { x with v := BitVec.ofNat 32 (field w (32 * L) 32) }) 0 r) 0 t.vregs }⟩ ]

/-- The fields of a stream's area at 0xE00 of a team's slot (15 R355; log 30 gives the places). -/
def streamSlots (mark : Nat) : List (Slot Thread) :=
  [ ⟨0xE00, 256, fun t => packS t.sregs, fun v t => { t with sregs := unpackS v t.sregs }⟩,
    ⟨0xF00, 8, fun t => packP t.sregs, fun v t => { t with sregs := unpackP v t.sregs }⟩,
    ⟨0xF08, 8, fun t => ccNat t.cc, fun v t => { t with cc := natCc v }⟩,
    ⟨0xF10, 8, fun t => t.pc.toNat, fun v t => { t with pc := BitVec.ofNat 64 v }⟩,
    ⟨0xF18, 8, fun t => t.sig.toNat, fun v t => { t with sig := BitVec.ofNat 32 v }⟩,
    ⟨0xF20, 8, fun t => t.mfw.toNat, fun v t => { t with mfw := BitVec.ofNat 64 v }⟩,
    ⟨0xF28, 16, fun t => mpertWords t.mpert, fun v t => { t with mpert := wordsMpert v }⟩,
    ⟨0xF38, 128, wakeWords mark, putWake⟩ ]

/-- A watermark's four words (04 R103); what the model knows of its format stays. -/
def markNat (w : Watermark) : Nat := packBits 64 (w.words.map BitVec.toNat)
def natMark (v : Nat) (old : Watermark) : Watermark :=
  ⟨BitVec.ofNat 32 (field v 32 32), BitVec.ofNat 8 (field v 24 8), BitVec.ofNat 3 (field v 16 3), BitVec.ofNat 2 (field v 8 2),
    BitVec.ofNat 3 (field v 0 3), field v 64 58, field v 128 58, field v 192 58, old.codes⟩

/-- The fields of a team's slot that hold its own state (15 R355). -/
def teamSlots : List (Slot Team) :=
  let eng (m : Team) : Engine := m.engine.getD Engine.free
  let onEng (m : Team) (f : Engine → Engine) : Team := { m with engine := m.engine.map f }
  [ ⟨0x100, 512, fun m => packBits 256 (m.marks.map markNat),
      fun v m => { m with marks := (List.range 16).map fun i => natMark (field v (256 * i) 256) (m.marks.getD i Watermark.idle) }⟩,
    ⟨0xC00, 400, fun m => m.act.xlo.toNat + m.act.xscale.toNat * 2 ^ 64 + packBits 32 (m.act.coef.map fun x => x.v.toNat) * 2 ^ 128,
      fun v m => { m with act := { m.act with
        xlo := BitVec.ofNat 32 (field v 0 32), xscale := BitVec.ofNat 32 (field v 64 32)
        coef := mapFrom (fun i (x : Lane) => { x with v := BitVec.ofNat 32 (field v (128 + 32 * i) 32) }) 0 m.act.coef } }⟩,
    ⟨0xD90, 16, fun m => m.act.p.toNat + packBits 1 (m.act.coef.map fun x => x.p.toNat) * 2,
      fun v m => { m with act := { m.act with
        p := field v 0 1 == 1, coef := mapFrom (fun i (x : Lane) => { x with p := field v (1 + i) 1 == 1 }) 0 m.act.coef } }⟩,
    ⟨0x1000, 139264, fun m => memNat (eng m).tiles 0 139264, fun v m => onEng m fun e => { e with tiles := cellsOf 18 0 v }⟩,
    ⟨0x23000, 4352, fun m => (eng m).tileP.toNat, fun v m => onEng m fun e => { e with tileP := BitVec.ofNat 34816 v }⟩,
    ⟨0x25000, 65536, fun m => memNat (eng m).acc 0 65536, fun v m => onEng m fun e => { e with acc := cellsOf 16 0 v }⟩,
    ⟨0x35000, 2048, fun m => (eng m).accP.toNat, fun v m => onEng m fun e => { e with accP := BitVec.ofNat 16384 v }⟩,
    ⟨0x36000, 524288, fun m => memNat m.scratch 0 524288, fun v m => { m with scratch := cellsOf 19 0 v }⟩ ]

/-- A layout record as words (04 R91). -/
def layoutNat (l : Layout) : Nat :=
  l.base + (l.space + l.ndim * 2 ^ 2 + l.fmt * 2 ^ 8 + l.tb * 2 ^ 16 + l.swz * 2 ^ 19 + l.extent.getD 4 0 * 2 ^ 32) * 2 ^ 64
    + packBits 32 (l.extent.take 4) * 2 ^ 128 + packBits 40 l.stride * 2 ^ 256
/-- A frozen-copy record (15 R355). -/
def copyNat (c : Copy) : Nat :=
  let cause := (c.frozen.getD 0).toNat
  c.ctl.toNat + packBits 64 ((c.ext.take 3).map BitVec.toNat) * 2 ^ 64 + packBits 32 c.srcO * 2 ^ 256 + packBits 32 c.dstO * 2 ^ 416
    + c.seq.toNat * 2 ^ 576 + (c.w + cause * 2 ^ 8) * 2 ^ 640 + layoutNat c.src * 2 ^ 1024 + layoutNat c.dst * 2 ^ 1536

/-! ### An area as bytes -/

/-- Pieces of an area: first byte, length, value. -/
abbrev Piece := Nat × Nat × Nat
def Slot.piece {α : Type} (f : Slot α) (base : Nat) (x : α) : Piece := (base + f.off, f.len, f.get x % 256 ^ f.len)
/-- The pieces of a team's slot; `mark` gives the watermark that a thread waits behind. -/
def teamPieces (g : Grid) (index : Nat) (m : Team) (mark : Thread → Nat) (ts : List Thread) (cs : List Copy) : List Piece :=
  let groups := ts.filter fun t => !t.stream
  let streams := ts.filter fun t => t.stream
  let present := groups.foldl (fun a t => a + 2 ^ t.gid) 0
  [ (0, 8, g.r.cblk.toNat), (8, 8, index + m.member * 2 ^ 48), (0x10, 8, scrBlocks g.r * 4096),
    (0x18, 8, g.r.gpt + 1 + present * 2 ^ 8 + m.engine.isSome.toNat * 2 ^ 24 + (!streams.isEmpty).toNat * 2 ^ 25) ]
  ++ teamSlots.map (fun f => f.piece 0 m)
  ++ mapFrom (fun i (c : Copy) => (0x400 + 256 * i, 256, copyNat c)) 0 (cs.take 8)
  ++ streams.flatMap (fun t => (streamSlots (mark t)).map fun f => f.piece 0 t)
  ++ groups.flatMap fun t => (groupSlots g.r.regs (mark t)).map fun f => f.piece (0xB6000 + t.gid * 131072) t
/-- Line k of an area. -/
def pieceLine (ps : List Piece) (k : Nat) : LineData :=
  BitVec.ofNat 1024 (ps.foldl (fun a p =>
    if p.2.2 == 0 || p.1 + p.2.1 ≤ 128 * k || 128 * k + 128 ≤ p.1 then a
    else if 128 * k ≤ p.1 then a + p.2.2 * 256 ^ (p.1 - 128 * k)
    else a + p.2.2 / 256 ^ (128 * k - p.1) % 256 ^ 128) 0)

/-! ### Taking an area back -/

inductive LoadAns (α : Type) where
  | ok (x : α) | pending | fault

/-- Read the fields of an area from a context's memory and put them into a state. -/
def loadSlots {α : Type} (slot base : Nat) : List (Slot α) → α → State → LoadAns α × State
  | [], x, s => (.ok x, s)
  | f :: r, x, s =>
    match devRead s 0 slot true (BitVec.ofNat 64 (base + f.off)) f.len with
    | (.pending, s) => (.pending, s)
    | (.fault _, s) => (.fault, s)
    | (.ok v _, s) => loadSlots slot base r (f.put v x) s
/-- Answers that came while a group was evicted stand over its image, which is older (14 R333): `was` is the machine's record. -/
def keepAnswers (was t : Thread) : Thread :=
  let one (t : Thread) (p : LogEntry × LogEntry) : Thread :=
    let came := p.1.performed &&& ~~~p.2.performed
    let t := t.modEntry p.1.id fun e => { e with performed := e.performed ||| came }
    if came == 0 then t
    else match p.1.dst with
      | .none => t
      | .vec b n => (List.range n).foldl (fun t i => t.putLanes (b + i) came fun L => was.lane (b + i) L) t
      | .scal r true => { t with banked := setAt t.banked r.val (was.banked.getD r.val SVal.zero) }
      | .scal r false => { t with sregs := setAt t.sregs r.val (was.sregs.getD r.val SVal.zero) }
  { (was.log.zip t.log).foldl one t with lct := max t.lct was.lct }
/-- Dispositions that software wrote for held entries (15 R356, R351). -/
def putDisp (v : Nat) (t : Thread) : Thread :=
  let served := mapFrom (fun i (e : LogEntry) => if e.held && field v (8 + i) 1 == 1 then
    (if field v (16 + i) 1 == 1 then e.drop else e.replay) else e) 0 t.log
  let left := served.filter fun e => e.unperformed != 0
  { t with log := left, wait := if t.wait == .replay && !(left.any LogEntry.held) then .none else t.wait }

end Sys2Proof.Machine
end

