-- ==== Sys2Proof/Machine/Evict.lean ====
section
/-! DEFINITION. Eviction, waking and restore (14 R329 to R334, 15 R355), EVCMD (14 R330), and the dispatch unit's turns
(14 R324, R325). -/
namespace Sys2Proof.Machine

/-! ### Blocking points (14 R329) -/

/-- The watermarks that a lane's bytes are compared against, the space and the first byte: of the own team, or of the member that it
goes to. -/
def lanePlace (s : State) (t : Thread) (e : LogEntry) (L : Nat) : Option (List Watermark × Nat × Nat) :=
  let a := e.addrs.getD L 0
  match e.op with
  | .load _ _ | .store _ _ | .atom _ _ => some (s.marksOf t.team, 0, a.toNat)
  | .spLoad _ | .spStore _ | .spAtom _ => match scratchAddr s t.team a (memSize e.op) with
    | .ok (team, off) => some (s.marksOf team, 1, off)
    | .error _ => none
  | _ => none
/-- A lane that is not sent because a watermark holds its bytes. -/
def heldLane (s : State) (t : Thread) (e : LogEntry) (L : Nat) : Bool :=
  match lanePlace s t e L with
  | some (ms, space, a) => heldBy ms space 0 a (memSize e.op) == .wait
  | none => false
/-- Lanes of an entry that are under way inside the package (log 26). -/
def insideLanes (s : State) (t : Thread) (e : LogEntry) : LaneMask :=
  let k := s.core t.core
  let loads := k.loads.filter fun l => l.uid == t.uid && l.entry == e.id && !l.beyond s
  let stores := (k.sb.filter fun x => !x.handed && !x.beyond s).flatMap fun x => x.from_.filter fun c => c.uid == t.uid && c.entry == e.id
  let msgs := s.scratchMsgs.filter fun m => m.uid == t.uid && m.entry == e.id
  let lanes := loads.map (fun l => laneBit l.lane) ++ stores.map Contrib.lanes ++ msgs.map fun x => laneBit x.lane
  e.flight &&& lanes.foldl (fun m l => m ||| l) 0
/-- Lanes of an entry that the replay buffer holds (11 R268): faulted, answered RETRY-MIGRATING, or awaiting an answer from
beyond the package. -/
def replayLanes (s : State) (t : Thread) (e : LogEntry) : LaneMask :=
  -- a CFLUSH or CINV awaits answers from beyond the package alone once it has acted on its last line
  if (e.op == .cflush || e.op == .cinv) && e.next < e.stop then e.faulted else
  e.faulted ||| e.moving ||| (e.flight &&& ~~~insideLanes s t e)
/-- An entry waits only on what the replay buffer holds. -/
def LogEntry.replayOnly (e : LogEntry) (s : State) (t : Thread) : Bool :=
  !e.trapReady && e.unperformed &&& ~~~replayLanes s t e == 0
/-- The oldest entry of a thread's log that is not performed. -/
def Thread.oldestEntry (t : Thread) : Option LogEntry := t.liveLog.find? fun e => e.unperformed != 0
/-- An entry waits only on a watermark (04 R105). -/
def LogEntry.markOnly (e : LogEntry) (s : State) (t : Thread) : Bool :=
  e.unsent == e.unperformed && (lanesOf e.unsent).all fun L => heldLane s t e L
/-- The oldest entry waits only on what the replay buffer holds, or only on a watermark (11 R268), or for a stream table entry or
an RPUTF slot (05 R149); of a stream only the watermark counts (09 R230). -/
def logBlocked (s : State) (t : Thread) : Bool :=
  match t.oldestEntry with
  | none => false
  | some e => e.markOnly s t || (!t.stream && (e.replayOnly s t
      || ((e.op == .rput || e.op == .rputf) && e.unsent == e.unperformed && postedWaits s (s.slotOf t) e)))
/-- The number of the watermark that the oldest entry waits behind (15 R356). -/
def heldMark (s : State) (t : Thread) : Nat :=
  match t.oldestEntry with
  | none => 0
  | some e => (((lanesOf e.unsent).find? fun L => heldLane s t e L).bind fun L => (lanePlace s t e L).bind fun p =>
      p.1.findIdx? fun w => w.state != 4 && (w.holds p.2.1 0 p.2.2 (memSize e.op)).isSome).getD 0
/-- A waiting fence waits only on what the replay buffer holds (11 R279), of what its scope waits for. -/
def fenceBlocked (s : State) (t : Thread) (sc : Scope) : Bool :=
  let es := t.liveLog.filter fun e => e.awaits sc != 0
  !es.isEmpty && (es.all fun e => e.awaits sc &&& ~~~replayLanes s t e == 0) && !((t.liveLog.head?.map LogEntry.trapReady).getD false)
    && (sc == .core || decide (t.lct ≤ s.now)) && (sc != .span || !(remoteOpen s t.uid || untrackedOpen s (s.slotOf t)))
/-- A group at a blocking point, or a stream that counts as blocked (09 R230, 12 R295): whatever else of it is under way. DESIGN CHOICE: a
group with no wait of its own is blocked by its log only once it cannot go on (log 98). -/
def blocked (s : State) (t : Thread) : Bool :=
  !t.ending && t.mode != .sup && (match t.wait with
    | .none => t.idle && logBlocked s t
    | .fence sc => !t.stream && fenceBlocked s t sc
    | .yield | .wait .. | .watermark .. | .engine _ => true
    | _ => !t.stream)

/-! ### Eviction (14 R330 to R332) -/

/-- The teams of a cluster that have not exited. -/
def liveTeams (s : State) (cluster : Nat) : List Team := s.teams.filter fun m => m.cluster == cluster && !m.exited
def threadsOf (s : State) (team : Nat) : List Thread := s.allThreads.filter fun t => t.team == team
/-- A copy that is frozen at a unit boundary. -/
def copyStopped (c : Copy) : Bool := c.frozen.isSome && c.sent.isEmpty && c.carry.isEmpty
/-- Every group and stream of a cluster is blocked, no team is pinned (14 R331). -/
def clusterBlocked (s : State) (cluster : Nat) : Bool :=
  (liveTeams s cluster).all fun m => (threadsOf s m.id).all (blocked s) && m.pinEnd.isNone
/-- The team has a live group. -/
def hasGroup (s : State) (team : Nat) : Bool := !(groupsOf s team).isEmpty
/-- Its copies have stopped too; a team without live groups has none open (14 R331). -/
def clusterStill (s : State) (cluster : Nat) : Bool :=
  (liveTeams s cluster).all fun m =>
    let cs := s.copies.filter fun c => c.team == m.id
    if hasGroup s m.id then cs.all copyStopped else cs.isEmpty
/-- Each landing copy of a team whose groups all wait freezes with CAUSE 0x21 at its next unit boundary (04 R112); one so frozen
of a team that has lost its groups since goes on. -/
def freezeForEviction (s : State) (cluster : Nat) : State :=
  let mine (c : Copy) : Bool := (liveTeams s cluster).any fun m => m.id == c.team && (groupsOf s m.id).all (blocked s)
  (s.copies.filter fun c => mine c && c.aborting.isNone).foldl (fun (s : State) c =>
    if !hasGroup s c.team then (if c.frozen == some 0x21 then copyResume s c.id else s)
    else if c.frozen.isSome then s
    else pokeCopy (s.modCopy c.id fun c => { c with frozen := some 0x21 }) c.id s.now) s

/-- The lowest free slots of a context's save pool (15 R355). -/
def freeSlots (c : Ctx) (n : Nat) : List Nat := ((List.range c.poolcnt).filter fun k => !bit c.pool k).take n
def slotBase (c : Ctx) (k : Nat) : Nat := c.poolbase.toNat + 2 ^ 22 * k
/-- The places of a slot's pages: each is 64 KiB. None while a walk is pending; a fault refuses the slot. -/
def slotPages (s : State) (slot base : Nat) : Nat → State → Option (Option (List (Nat × Bool))) × State
  | 0, s => (some (some []), s)
  | n + 1, s' => match slotPages s slot base n s' with
    | (some (some ps), s') => match xlatNow s' 0 slot (BitVec.ofNat 64 (base + 65536 * n)) .write true with
      | (.pending, s') => (none, s')
      | (.fault _, s') => (some none, s')
      | (.ok pa cen, s') => (some (some (ps ++ [(pa, cen)])), s')
    | r => r
/-- A line of this package's memory that no one else holds or writes reads so already: writing it would change nothing. -/
def readsAs (s : State) (line : Nat) (d : LineData) : Bool :=
  isLocal s line && metaOf s line == 0 && (s.l2get line none).isNone && !(s.l2w.any fun w => w.line == line) && memLine s line == d
/-- Write a team's image to its slot, line by line (15 R355). -/
def writeImage (s : State) (slot base : Nat) (pages : List (Nat × Bool)) (ps : List Piece) : State :=
  (List.range 32768).foldl (fun (s : State) k =>
    let (pa, cen) := pages.getD (k / 512) (0, false)
    if readsAs s (pa / 128 + k % 512) (pieceLine ps k) then s
    else
    let (id, s) := s.fresh
    let nc := inWindow (s.ctx slot) (base + 128 * k)
    l2Arrive s ⟨id, pa / 128 + k % 512, slot, nc, cen, pieceLine ps k, fullMask, false, none, s.now + 1, .none, base + 128 * k, false,
      false, false⟩) s

/-- A group as saved: a WAIT keeps what is left of its timeout (09 R235); accesses on their way to other members are sent again
when it is restored. -/
def saveThread (now : Nat) (msgs : List ScratchMsg) (t : Thread) : Thread :=
  let way (e : LogEntry) : LaneMask :=
    (msgs.filter fun m => m.uid == t.uid && m.entry == e.id).foldl (fun m x => m ||| laneBit x.lane) 0
  { t with
    active := false, stall := false, idle := false, fetched := none, fetching := none
    log := t.log.map fun e => { e with flight := e.flight &&& ~~~way e }
    wait := match t.wait with
      | .wait ps all left last => .wait ps all (if left == 2 ^ 64 - 1 then left else left - (now - last)) now
      | w => w }
/-- The images of a cluster that has stopped are written once its engines have completed what its teams had queued, each with its
team's matrix state (12 R295, 15 R355). -/
def imageStart (s : State) (c : SavedCluster) : State :=
  let busy (m : Team) : Bool := (s.core m.core).engine.holder == some m.id && !(s.core m.core).engine.queue.isEmpty
  match s.grid? c.cluster.grid with
  | none => s
  | some g =>
    if c.todo.isEmpty || c.teams.any busy then s
    else
      let engineOf (m : Team) : Option Engine :=
        if m.exited then none
        else if (s.core m.core).engine.holder == some m.id then some (s.core m.core).engine else m.engine
      let teams := c.teams.map fun m => { m with engine := engineOf m }
      let whole : State := { s with teams := s.teams ++ teams, clusters := s.clusters ++ [c.cluster] }
      let first := s.seq
      let s := c.todo.foldl (fun (s : State) x =>
        match teams.find? (fun m => m.id == x.1), c.slots.find? fun k => k.1 == x.1 with
        | some m, some k =>
          let ps := teamPieces g c.cluster.index m (heldMark whole) (c.threads.filter fun t => t.team == m.id)
            (c.copies.filter fun k => k.team == m.id)
          writeImage s g.slot (slotBase (s.ctx g.slot) k.2) x.2 ps
        | _, _ => s) s
      { s with saved := s.saved.map fun x =>
        if x.id == c.id then { x with teams := teams, writes := (first, s.seq), todo := [] } else x }
/-- Save a cluster whose slots and their pages are known: all its teams together (14 R331). They stop here, and take up their cores
until their images are in memory (`saveSettle`). -/
def saveCluster (s : State) (c : Cluster) (g : Grid) (claims : List (Team × Nat × List (Nat × Bool))) : State :=
  let mine := s.teams.filter fun m => m.cluster == c.id
  let here := s.threads.filter fun t => mine.any fun m => m.id == t.team
  let threads := here.map (saveThread s.now s.scratchMsgs)
  let copies := (s.copies.filter fun k => mine.any fun m => m.id == k.team).map fun k => { k with reading := [] }
  let s := claims.foldl (fun (s : State) x => s.modCtx g.slot fun c => { c with pool := putBit c.pool x.2.1 true }) s
  let gone (t : Nat) : Bool := mine.any fun m => m.id == t
  let saved : SavedCluster := ⟨c.id, { c with evicting := false }, mine, threads, copies, claims.map (fun x => (x.1.id, x.2.1)), false, (0, 0), false, false,
    claims.map fun x => (x.1.id, x.2.2)⟩
  let s := threads.foldl (fun (s : State) t => leaveQueues s g.slot t.core t.uid) s
  imageStart { s with
    threads := s.threads.filter fun t => !gone t.team
    teams := s.teams.filter fun m => m.cluster != c.id
    clusters := s.clusters.filter fun x => x.id != c.id
    copies := s.copies.filter fun k => !gone k.team
    scratchMsgs := s.scratchMsgs.filter fun x => !(here.any fun t => t.uid == x.uid)
    saved := s.saved ++ [saved] } saved
/-- A write of the image has faulted: the cluster stays resident, its slots are given back, and its eviction is tried again within
10,000 ticks (15 R355). -/
def stayResident (s : State) (c : SavedCluster) : State :=
  let slot := ((s.grid? c.cluster.grid).map Grid.slot).getD 0
  let s := s.modCtx slot fun k => { k with pool := c.slots.foldl (fun p x => putBit p x.2 false) k.pool }
  let own (m : Team) : Team := if (s.core m.core).engine.holder == some m.id then { m with engine := none } else m
  let s : State := { s with
    saved := s.saved.filter fun x => x.id != c.id
    clusters := s.clusters ++ [{ c.cluster with evicting := true }]
    teams := s.teams ++ c.teams.map own
    threads := s.threads ++ c.threads
    copies := s.copies ++ c.copies }
  (s.post (s.now + 10000) (.evictRetry c.id)).wake
/-- A cluster whose image's writes are over has left its cores, or stays resident. -/
def saveSettle (s : State) : State :=
  let s := s.leaving.foldl imageStart s
  (s.leaving.filter fun c => !imageDue s c).foldl (fun s c => if c.failed then stayResident s c else takeOff s c) s

/-- EVCMD's command is over: no cluster of an evicted context is resident, those whose images are still written among them; every
grid of an ended one is finished. -/
def evSettle (s : State) : State :=
  if !bit s.evcmd 62 then s
  else
    let num := bits s.evcmd 0 16
    let mine (g : Grid) : Bool := (s.ctx g.slot).num == num && (s.ctx g.slot).status == .loaded
    let resident := (s.clusters.any fun c => ((s.grid? c.grid).map mine).getD false)
      || s.leaving.any fun c => ((s.grid? c.cluster.grid).map mine).getD false
    let ended := s.grids.all fun g => !(mine g && g.err)
    if (if bits s.evcmd 60 2 == 1 then !resident else ended) then { s with evcmd := putBit s.evcmd 62 false } else s

/-- CLUSTER EVICT (14 R331): evicted at the first instant at which everything is still; else it is looked at again. -/
def clusterEvict (s : State) (cluster : Nat) : State :=
  match s.cluster? cluster with
  | none => evSettle s
  | some c => match s.grid? c.grid with
    | none => s
    | some g =>
      let again (s : State) (d : Nat) : State := s.post (s.now + d) (.evictRetry cluster)
      if !c.evicting then s
      else if s.out then again s 1
      else
      let copies := s.copies
      let s := freezeForEviction s cluster
      if s.copies != copies || !clusterBlocked s cluster || !clusterStill s cluster then again s 1
      else
        let teams := liveTeams s cluster
        let k := s.ctx g.slot
        let slots := freeSlots k teams.length
        -- no slot: the cluster stays, and is tried again within 10,000 ticks
        if slots.length < teams.length then again s 10000
        else
          let r := (teams.zip slots).foldl (fun (r : Option (Option (List (Team × Nat × List (Nat × Bool)))) × State) x =>
            match r with
            | (some (some l), s) => match slotPages s g.slot (slotBase k x.2) 64 s with
              | (some (some ps), s) => (some (some (l ++ [(x.1, x.2, ps)])), s)
              | (some none, s) => (some none, s)
              | (none, s) => (none, s)
            | r => r) (some (some []), s)
          match r with
          | (none, s) => again s Config.pollTicks
          | (some none, s) => again s 10000
          | (some (some claims), s) => evSettle (saveCluster s c g claims)

/-- A command of EVCMD for a context (14 R330): its fields, and its entry when it is resident. ERR stays where zero is
written to it (00 R6). -/
def evcmdBegin (s : State) (w : Dword) (op : Nat) : Option Nat × State :=
  let num := bits w 0 16
  let base : Dword := BitVec.ofNat 64 (op * 2 ^ 60 + num)
  let kept : Dword := s.evcmd &&& ~~~w &&& 0x10000
  match (List.range 64).find? fun i => (s.ctx i).status == .loaded && (s.ctx i).num == num with
  | none => (none, { s with evcmd := base + 0x10000 })
  | some k => (some k, { s with evcmd := base + 0x4000000000000000 + kept })
/-- EVICT. -/
def evictContext (s : State) (w : Dword) : State :=
  if bit s.evcmd 62 then s
  else match evcmdBegin s w 1 with
    | (none, s) => s
    | (some slot, s) =>
      let mine := s.clusters.filter fun c => ((s.grid? c.grid).map Grid.slot) == some slot
      let s : State := { s with clusters := s.clusters.map fun c => if mine.any fun x => x.id == c.id then { c with evicting := true } else c }
      evSettle (mine.foldl (fun (s : State) c => s.post s.now (.clusterEvict c.id)) s)
/-- END: grids that wait end as the others do. -/
def endContext (s : State) (w : Dword) : State :=
  if bit s.evcmd 62 then s
  else match evcmdBegin s w 2 with
    | (none, s) => s
    | (some slot, s) =>
      evSettle ((s.grids.filter fun g => g.slot == slot && (g.stage == .waiting || g.stage == .running)).foldl (fun (s : State) g =>
        endGrid (s.modGrid g.id fun g => { g with stage := .running }) g.id 0 false 0 0) s)

/-! ### Waking (14 R333) -/

/-- A saved thread's wake condition, with the saved cluster's teams standing in their places: none while a read is pending. -/
def wakeCond (s : State) (c : SavedCluster) (slot : Nat) (t : Thread) : Option Bool × State :=
  let whole : State := { s with teams := s.teams ++ c.teams, clusters := s.clusters ++ [c.cluster] }
  let back (r : State) : State := { r with teams := s.teams, clusters := s.clusters }
  let now (b : Bool) : Option Bool × State := (some b, s)
  let state (w m : Nat) : Nat :=
    (((c.teams.find? fun x => x.member == m).map fun x => (x.marks.getD w Watermark.idle).state.toNat).getD 0)
  -- an entry marked serviced in the save area
  let served (k : Unit → Option Bool × State) : Option Bool × State :=
    match c.slots.find? fun x => x.1 == t.team with
    | none => k ()
    | some x => match devRead s 0 slot true (BitVec.ofNat 64 (slotBase (s.ctx slot) x.2 + 0xB6000 + t.gid * 131072 + 0x90)) 8 with
      | (.pending, s) => (none, s)
      | (.fault _, s) => (some true, s)
      | (.ok v _, s) => (some ((mapFrom (fun i (e : LogEntry) => e.held && field v (8 + i) 1 == 1) 0 t.log).any id), s)
  match t.wait with
  | .yield | .engine _ | .seqgo _ | .launch | .streamTable _ => now true
  | .wait pairs all _ _ =>
    -- the dispatch unit's loads pass no core's store buffer
    match condAll { t with core := s.cores.length } all pairs whole with
    | (none, r) => (none, back r)
    | (some (.error _), r) => (some true, back r)
    | (some (.ok xs), r) => (some (if all then xs.all Prod.fst else xs.any Prod.fst), back r)
  | .bara a g _ => match scratchAddr whole t.team a 8 with
    | .error _ => now true
    | .ok (team, off) => match c.teams.find? fun m => m.id == team with
      | some m => now (m.exited || syncGen (Mem.load m.scratch off 8) != g.toNat)
      | none => now true
  | .watermark m w => now (!(state w m == 1 || state w m == 2))
  | .sendw id => now (!(s.reqs.any fun r => r.id == id && !r.ended))
  | .replay => served fun _ => now false
  | w =>
    let free (e : LogEntry) : Bool := e.moving == 0 && e.flight == 0 && !((lanesOf e.unsent).any fun L => heldLane whole t e L)
    let log := t.log.filter fun e => e.unperformed != 0
    if t.log.any LogEntry.held then served fun _ => now false
    else now ((match w with
      | .none => log.take 1
      | .fence sc => log.filter fun e => e.awaits sc != 0
      | _ => log).all free)
/-- Whether any of a list of groups is ready. -/
def wakeAny (c : SavedCluster) (slot : Nat) : List Thread → State → Option Bool × State
  | [], s => (some false, s)
  | t :: r, s => match wakeCond s c slot t with
    | (some true, s) => (some true, s)
    | (none, s) => match wakeAny c slot r s with
      | (some false, s) => (none, s)
      | x => x
    | (some false, s) => wakeAny c slot r s
/-- Whether software has marked a record of a copy that a fault froze as serviced (15 R351, R355): none while a read is
pending. -/
def copyServed (s : State) (c : SavedCluster) (slot : Nat) : Option Bool × State :=
  c.slots.foldl (fun (r : Option Bool × State) x =>
    let cs := (c.copies.filter fun k => k.team == x.1).take 8
    (mapFrom (fun i (k : Copy) => (i, k)) 0 cs).foldl (fun (r : Option Bool × State) p =>
      if r.1 != some false || !(p.2.frozen == some (0x05 : Byte) || p.2.frozen == some (0x08 : Byte)) then r
      else match devRead r.2 0 slot true (BitVec.ofNat 64 (slotBase (s.ctx slot) x.2 + 0x400 + 256 * p.1 + 0x58)) 8 with
        | (.pending, s) => (none, s)
        | (.fault _, s) => (some true, s)
        | (.ok v _, s) => (some (v == 1 || v == 2), s)) r) (some false, s)
/-- A vector of the handler group that asks for a wake (13 R317). -/
def wakeVector (s : State) (slot : Nat) (c : SavedCluster) : Bool :=
  let u := (s.ctx slot).ui
  !u.inh && (c.threads.any fun t => u.hg == some t.uid)
    && (List.range 64).any fun n => bit u.pend n && bit u.mask n && bit (u.rule.getD n 0) 2
/-- A saved cluster's restore request enters the queue, once. -/
def queueRestore (s : State) (c : SavedCluster) : State :=
  if c.queued then s
  else
    let prio := ((s.grid? c.cluster.grid).map fun g => g.r.prio).getD 0
    enqueue { s with saved := s.saved.map fun x => if x.id == c.id then { x with queued := true } else x } true c.id c.cluster.index prio
/-- WAKE EVALUATE: at least every 10,000 ticks while the context is loaded. -/
def wakeEvaluate (s : State) (id : Nat) : State :=
  match s.saved.find? fun c => c.id == id with
  | none => s
  | some c => match s.grid? c.cluster.grid with
    | none => s
    | some g =>
      let k := s.ctx g.slot
      if k.status != .loaded || c.queued then s
      else if !c.off then s.post (s.now + Config.pollTicks) (.wakeEvaluate id)
      else if k.wake || wakeVector s g.slot c || c.copies.any (fun x => x.frozen == some 0x21) then queueRestore s c
      else match (match copyServed s c g.slot with
        | (some false, s) => wakeAny c g.slot (c.threads.filter fun t => !t.stream) s
        | r => r) with
        | (some true, s) => queueRestore s c
        | (some false, s) => s.post (s.now + 10000) (.wakeEvaluate id)
        | (none, s) => s.post (s.now + Config.pollTicks) (.wakeEvaluate id)

/-! ### Restore (14 R334) -/

/-- What the restore of a team asks of a core. DESIGN CHOICE: of a team that has exited it asks nothing beyond a
free team slot, no test, and a budget that is not exceeded (log 100). -/
def restoreNeed (g : Grid) (c : SavedCluster) (m : Nat × Nat) : Need :=
  match c.teams.find? fun x => x.id == m.2 && !x.exited with
  | none => ⟨0, 0, 0, 0, false⟩
  | some x =>
    let groups := (c.threads.filter fun t => t.team == x.id && !t.stream).length
    ⟨groups, groups * g.r.allot, scrBlocks g.r, g.r.cost, c.threads.any fun t => t.team == x.id && t.stream⟩
/-- Take a group or a stream back from its area. -/
def loadThreads (slot base regs : Nat) : List Thread → State → LoadAns (List Thread) × State
  | [], s => (.ok [], s)
  | was :: r, s =>
    let at_ := if was.stream then base else base + 0xB6000 + was.gid * 131072
    match loadSlots slot at_ (if was.stream then streamSlots 0 else groupSlots regs 0) was s with
    | (.pending, s) => (.pending, s)
    | (.fault, s) => (.fault, s)
    | (.ok t, s) => match (if t.stream then (.ok 0 false, s) else devRead s 0 slot true (BitVec.ofNat 64 (at_ + 0x90)) 8) with
      | (.pending, s) => (.pending, s)
      | (.fault _, s) => (.fault, s)
      | (.ok v _, s) => match loadThreads slot base regs r s with
        | (.ok ts, s) => (.ok (putDisp v (keepAnswers was t) :: ts), s)
        | x => x
/-- Reads of evicted groups that are still on their way go: their lanes are sent again, translated afresh (01 R39). -/
def dropLoads (s : State) (threads : List Thread) : State :=
  { s with cores := s.cores.map fun k => { k with loads := k.loads.filter fun l => !(threads.any fun t => t.uid == l.uid) } }
/-- The lanes of a restored thread that are under way no more are sent again, each translated afresh; those that faulted too, but for
an entry that still waits for service (11 R268, 15 R338). -/
def sendAgain (s : State) (t : Thread) : Thread :=
  let open_ (e : LogEntry) : LaneMask :=
    let stores := s.cores.foldl (fun m k => k.sb.foldl (fun m x => x.from_.foldl (fun m c =>
      if c.uid == t.uid && c.entry == e.id then m ||| c.lanes else m) m) m) 0
    s.reqs.foldl (fun m r => match r.for_ with
      | .lanes u i ls => if u == t.uid && i == e.id && !r.ended then m ||| ls else m
      | _ => m) stores
  { t with log := t.log.map fun e => { e with flight := e.flight &&& open_ e, faults := if e.held then e.faults else [] } }
/-- Take the dispositions of a team's copy records. -/
def loadCopies (slot base : Nat) : Nat → List Copy → State → LoadAns (List (Copy × Nat)) × State
  | _, [], s => (.ok [], s)
  | i, c :: r, s =>
    match devRead s 0 slot true (BitVec.ofNat 64 (base + 0x400 + 256 * i + 0x58)) 8 with
    | (.pending, s) => (.pending, s)
    | (.fault _, s) => (.fault, s)
    | (.ok v _, s) => match loadCopies slot base (i + 1) r s with
      | (.ok cs, s) => (.ok ((c, if i < 8 then v else 0) :: cs), s)
      | (.pending, s) => (.pending, s)
      | (.fault, s) => (.fault, s)
/-- Take every team of a cluster back from its slot. -/
def loadTeams (slot : Nat) (g : Grid) (c : SavedCluster) : List Team → State → LoadAns (List (Team × List Thread × List (Copy × Nat))) × State
  | [], s => (.ok [], s)
  | m :: r, s =>
    match c.slots.find? fun x => x.1 == m.id with
    | none => match loadTeams slot g c r s with
      | (.ok l, s) => (.ok ((m, [], []) :: l), s)
      | x => x
    | some x =>
      let base := slotBase (s.ctx slot) x.2
      match loadSlots slot base teamSlots m s with
      | (.pending, s) => (.pending, s)
      | (.fault, s) => (.fault, s)
      | (.ok m, s) => match loadThreads slot base g.r.regs (c.threads.filter fun t => t.team == m.id) s with
        | (.pending, s) => (.pending, s)
        | (.fault, s) => (.fault, s)
        | (.ok ts, s) => match loadCopies slot base 0 (c.copies.filter fun k => k.team == m.id) s with
          | (.pending, s) => (.pending, s)
          | (.fault, s) => (.fault, s)
          | (.ok cs, s) => match loadTeams slot g c r s with
            | (.ok l, s) => (.ok ((m, ts, cs) :: l), s)
            | x => x

/-- Put a restored team on its core, with its groups, its stream and its copies. -/
def restoreTeam (s : State) (g : Grid) (core : Nat) (x : Team × List Thread × List (Copy × Nat)) : State :=
  let m := x.1
  let slot := if m.exited then 0 else freeSlot s core
  let at_ := if m.exited then 0 else (freeRun s core m.runLen).getD 0
  let m : Team := { m with core := core, slot := slot, runAt := at_ }
  let s := dropLoads s x.2.1
  let threads := x.2.1.map fun t => { sendAgain s t with
    core := core, resident := s.now, activeAt := s.now, readyAt := s.now, issuedAt := none
    wait := match t.wait with
      | .wait ps all left _ => .wait ps all left s.now
      | w => w }
  let s : State := { s with teams := s.teams ++ [m], threads := s.threads ++ threads, copies := s.copies ++ x.2.2.map fun k => { k.1 with core := core } }
  let s := if m.exited then s else coreSlot s core g.slot
  let u := (s.ctx g.slot).ui
  let s := if threads.any fun t => u.hg == some t.uid then
      s.modCtx g.slot fun c => { c with ui := { c.ui with core := core, team := slot } }
    else s
  -- one that only eviction froze goes on; one frozen by a fault as software has said; the rest stay FROZEN (04 R112)
  x.2.2.foldl (fun (s : State) k =>
    let faulted := k.1.frozen == some (0x05 : Byte) || k.1.frozen == some (0x08 : Byte)
    if k.1.frozen == some 0x21 then pokeCopy s k.1.id s.now
    else if faulted && k.2 == 1 then copyResume s k.1.id
    else if faulted && k.2 == 2 then abortCopy s k.1.id (k.1.frozen.getD 0)
    else pokeCopy s k.1.id s.now) s

/-- What a restore request comes to. -/
inductive Placed where
  | placed (s : State)
  /-- no place yet -/
  | no (s : State)
  /-- its save slot cannot be read now, or at all -/
  | pending (s : State)

/-- Restore the cluster at the head of the queue, if it fits and its slots can be read (14 R334, 15 R355). -/
def placeRestore (s : State) (q : PlaceReq) : Placed :=
  let gone (s : State) : State := { s with queue := s.queue.filter fun x => x.entry != q.entry }
  match s.saved.find? fun c => c.id == q.target with
  | none => .placed (gone s)
  | some c => match s.grid? c.cluster.grid with
    | none => .placed { gone s with saved := s.saved.filter fun x => x.id != c.id }
    | some g =>
      let k := s.ctx g.slot
      -- nothing of a grid that was ended is placed (14 R330)
      if g.err then .placed (gone s)
      else if k.status != .loaded || evictingCtx s k.num then .no s
      else match findPlace s g.die g.r.cw g.r.ch (c.cluster.members.map (restoreNeed g c)) with
        | none => .no s
        | some cores => match loadTeams g.slot g c c.teams s with
          | (.pending, s) => .pending s
          -- it re-enters the queue (15 R355)
          | (.fault, s) => .pending (queueUp (gone s) true c.id c.cluster.index g.r.prio)
          | (.ok xs, s) =>
            let s := gone s
            let coreOf (m : Team) : Nat := cores.getD m.member 0
            let members := c.cluster.members.map fun m => (((c.teams.find? fun x => x.id == m.2).map coreOf).getD 0, m.2)
            let s : State := { s with
              saved := s.saved.filter fun x => x.id != c.id
              clusters := s.clusters ++ [{ c.cluster with members := members }] }
            let s := s.modCtx g.slot fun k => { k with pool := c.slots.foldl (fun p x => putBit p x.2 false) k.pool }
            .placed (xs.foldl (fun (s : State) x => restoreTeam s g (coreOf x.1) x) s).wake

/-! ### The dispatch unit's turns (14 R324) -/

/-- DISPATCH PLACE: the request at the head of the queue, and no other; at most one cluster in a tick (14 R326). -/
def dispatchPlace (s : State) : State :=
  match queueHead s with
  | none => s
  | some q =>
    let tick (s : State) : State := State.post { s with placeFrom := s.now + 1 } (s.now + 1) .dispatchPlace
    if s.now < s.placeFrom then s.post s.placeFrom .dispatchPlace
    else if q.restore then match placeRestore s q with
      | .placed s => tick s
      | .no s => s
      | .pending s => s.post (s.now + Config.pollTicks) .dispatchPlace
    else match placeLaunch s q with
      | some s => tick s.wake
      | none => s
/-- DISPATCH RETRY: again at every change, and at least once every 1,000 ticks while a request waits. -/
def dispatchRetry (s : State) : State :=
  let s := dispatchPlace s
  if s.queue.isEmpty || s.agenda.any fun e => match e.2 with
    | .dispatchRetry => true
    | _ => false then s
  else s.post (s.now + 1000) .dispatchRetry

/-! ### The events -/

/-- 14 R330. -/
def execEvcmdEvict (w : Dword) (s : State) : Host.Outcome State Fault Refusal := regAccess s fun s => evictContext s w
/-- 14 R330. -/
def execEvcmdEnd (w : Dword) (s : State) : Host.Outcome State Fault Refusal := regAccess s fun s => endContext s w
/-- 14 R331, R332. -/
def execClusterEvict (cluster : Nat) (s : State) : Host.Outcome State Fault Refusal := event s fun s => clusterEvict s cluster
/-- 15 R355. -/
def execEvictRetry (cluster : Nat) (s : State) : Host.Outcome State Fault Refusal := event s fun s => clusterEvict s cluster
/-- 14 R333. -/
def execWakeEvaluate (cluster : Nat) (s : State) : Host.Outcome State Fault Refusal := event s fun s => wakeEvaluate s cluster
/-- 14 R324, R325, R334. -/
def execDispatchPlace (s : State) : Host.Outcome State Fault Refusal := event s dispatchRetry
/-- 14 R324. -/
def execDispatchRetry (s : State) : Host.Outcome State Fault Refusal := event s dispatchRetry

end Sys2Proof.Machine
end

