-- ==== Sys2Proof/Machine/Context.lean ====
section
/-! DEFINITION. Contexts at a package: CTXCMD and the context block (15 R352 to R354, 21 R400, R401), and the fault queue
(15 R350, R351). -/
namespace Sys2Proof.Machine

/-! ### The block (15 R354) -/

/-- A little-endian field of n bytes of a block's 4 KiB. -/
def blk (v off n : Nat) : Nat := v / 256 ^ off % 256 ^ n
/-- The reserved bits of the registers that a block holds, each as its place in the block, first bit and length: NCW (01 R30),
UIHG to UIRULE (13 R308), FXCTL to FXKENT (08 R210). -/
def blockReserved : List (Nat × Nat × Nat) :=
  ((List.range 16).flatMap fun i => [(0x80 + 8 * i, 57, 7), (0x80 + 8 * i, 8, 8), (0x80 + 8 * i, 1, 1)])
    ++ [(0x110, 25, 39), (0x110, 12, 4), (0x110, 6, 2), (0x110, 3, 1), (0x118, 57, 7), (0x118, 0, 2), (0x120, 57, 7),
      (0x120, 0, 2), (0x128, 32, 32), (0x130, 32, 32), (0x138, 32, 32), (0x140, 17, 47), (0x3A0, 32, 31), (0x3A8, 24, 40),
      (0x3B0, 57, 7)]
    ++ (List.range 64).map fun n => (0x300 + n, 3, 4)
/-- A block that LOAD refuses with ERR 1: lease, timeout, save pool count, reserved bits (15 R352; log 29). DESIGN CHOICE: FQLOG outside 4
to 12 is accepted, and used as it stands (log 102). -/
def blockInvalid (v : Nat) : Bool :=
  blockReserved.any (fun r => field (blk v r.1 8) r.2.1 r.2.2 != 0) ||
  5 ≤ field (blk v 0 8) 16 3 || field (blk v 0 8) 19 45 != 0 || blk v 8 4 < 10000 || 100000000 < blk v 8 4
    || field (blk v 0x50 8) 34 30 != 0 || 1024 < field (blk v 0x78 8) 0 11 || field (blk v 0x78 8) 11 53 != 0
    || field (blk v 0x58 8) 4 2 != 0 || blk v 0x148 56 != 0 || blk v 0x3B8 72 != 0 || blk v 0xE80 384 != 0
/-- The interrupt registers of a block; the handler group is the one that the package knows of (13 R309), or, where UIHG.V says that
there is one and the package knows of none, a group that is not here, numbered 0. Of a context that the
package did not know, every pending vector is taken to ask for an acquire at SPAN scope (`all`; log 80). -/
def blockUi (v : Nat) (old : UiRegs) (all : Bool) : UiRegs :=
  let w (off : Nat) : Nat := blk v off 8
  let hg := w 0x110
  { pend := BitVec.ofNat 64 (w 0x100), mask := BitVec.ofNat 64 (w 0x108), wide := (if all then BitVec.allOnes 64 else old.wide) &&& BitVec.ofNat 64 (w 0x100)
    hg := if field hg 0 1 == 1 then old.hg.or (some 0) else none, core := field hg 16 9, group := field hg 8 4, team := field hg 4 2
    inh := field hg 2 1 == 1 && field hg 0 1 == 1
    vec := addrField (BitVec.ofNat 64 (w 0x118)), pc := addrField (BitVec.ofNat 64 (w 0x120))
    savm := (List.range 3).map fun k => BitVec.ofNat 32 (w (0x128 + 8 * k))
    den := field (w 0x140) 16 1 == 1, drops := BitVec.ofNat 16 (w 0x140)
    cnt := (List.range 64).map fun n => BitVec.ofNat 16 (blk v (0x180 + 2 * n) 2)
    data := (List.range 64).map fun n => BitVec.ofNat 32 (blk v (0x200 + 4 * n) 4)
    rule := (List.range 64).map fun n => BitVec.ofNat 8 (blk v (0x300 + n) 1 &&& 0x87) }
def blockFx (v : Nat) : FxRegs :=
  ⟨(List.range 24).map fun n => BitVec.ofNat 32 (blk v (0x340 + 4 * n) 4), BitVec.ofNat 64 (blk v 0x3A0 8) &&& 0x80000000FFFFFFFF,
    BitVec.ofNat 64 (blk v 0x3A8 8) &&& 0xFFFFFF, BitVec.ofNat 64 (blk v 0x3B0 8) &&& 0x01FFFFFFFFFFFFFF, none⟩
/-- The bytes from 0x100 to 0xE7F that PARK writes. -/
def parkBytes (c : Ctx) : Nat :=
  let u := c.ui
  let hg := u.core * 2 ^ 16 + u.group * 2 ^ 8 + u.team * 2 ^ 4 + u.inh.toNat * 4 + u.hg.isSome.toNat
  let at_ (off v : Nat) : Nat := v * 256 ^ (off - 0x100)
  at_ 0x100 (packBits 64 ([u.pend.toNat, u.mask.toNat, hg, u.vec.toNat, u.pc.toNat] ++ u.savm.map BitVec.toNat
      ++ [u.den.toNat * 2 ^ 16 + u.drops.toNat]))
    + at_ 0x180 (packBits 16 (u.cnt.map BitVec.toNat)) + at_ 0x200 (packBits 32 (u.data.map BitVec.toNat))
    + at_ 0x300 (packBits 8 (u.rule.map BitVec.toNat)) + at_ 0x340 (packBits 32 (c.fx.cnt.map BitVec.toNat))
    + at_ 0x3A0 (packBits 64 [c.fx.ctl.toNat, c.fx.stat.toNat, c.fx.kent.toNat])
    + at_ 0x400 (packBits 64 (c.cpyseq.map BitVec.toNat)) + at_ 0xE00 c.pool.toNat
/-- A context as its block gives it (15 R353, R354); what the package keeps of it stays. -/
def blockCtx (v block : Nat) (old : Ctx) : Ctx :=
  { old with
    status := .loaded, block := block, num := field (blk v 0 8) 0 16
    lease := 4 * 2 ^ field (blk v 0 8) 16 3, timeout := blk v 8 4, key := BitVec.ofNat 32 (blk v 12 4)
    l3 := (List.range 4).map fun i => BitVec.ofNat 64 (blk v (0x10 + 8 * i) 8)
    ltbase := BitVec.ofNat 64 (blk v 0x30 8), rwtbase := BitVec.ofNat 64 (blk v 0x38 8), tollbase := BitVec.ofNat 64 (blk v 0x40 8)
    trapvec := BitVec.ofNat 64 (blk v 0x48 8), extmask := BitVec.ofNat 32 (blk v 0x50 4)
    pdeny := if field (blk v 0x50 8) 32 1 == 1 then old.pdeny.or (some 0) else none
    fqbase := BitVec.ofNat 64 (blk v 0x58 8 / 64 * 64), fqlog := field (blk v 0x58 8) 0 4
    poolbase := BitVec.ofNat 64 (blk v 0x70 8), poolcnt := field (blk v 0x78 8) 0 11
    ncw := (List.range 16).map fun i => BitVec.ofNat 64 (blk v (0x80 + 8 * i) 8) &&& ncwBits
    ui := blockUi v old.ui (old.status == .unknown), fx := blockFx v, fqhead := blk v 0x60 8
    cpyseq := (List.range 320).map fun i => BitVec.ofNat 64 (blk v (0x400 + 8 * i) 8)
    pool := BitVec.ofNat 1024 (blk v 0xE00 128), wake := old.wake }

/-- Read a block, line by line; none while a line is on its way, or where its home is lost. -/
def readCtxBlock (slot block : Nat) : Nat → State → Option (Option Nat) × State
  | 0, s => (some (some 0), s)
  | n + 1, s => match readCtxBlock slot block n s with
    | (some (some v), s) => match takeExpired s ((block + 128 * n) / 128) false with
      | (some _, s) => (some none, s)
      | (none, s) => match physRead s slot (block + 128 * n) 128 false false with
        | (.pending, s) => (none, s)
        | (.lost, s) => (some none, s)
        | (.data d psn, s) => (if psn then some none else some (some (v + d.toNat * 256 ^ (128 * n))), s)
    | r => r

/-! ### CTXCMD (15 R352) -/

def cmdErr (s : State) (n : Nat) : State := { s with ctxcmd := putBits (putBit s.ctxcmd 62 false) 8 2 n }
/-- A command's fields; ERR is written by the command's end, or cleared by ones written to it. -/
def cmdFields (s : State) (w : Dword) : State :=
  let err := bits s.ctxcmd 8 2 &&& (3 - bits w 8 2)
  { s with ctxcmd := putBits (w &&& 0x300FFFFFFFFFF0FF) 8 2 err }
def cmdSlot (s : State) : Nat := bits s.ctxcmd 0 8
def cmdBlock (s : State) : Nat := bits s.ctxcmd 12 40 * 4096
/-- LOAD begins: the entry is unknown, or parked with this block (step 1). -/
def loadBegin (s : State) (w : Dword) : State :=
  if bit s.ctxcmd 62 then s
  else
    let s := cmdFields s w
    let c := s.ctx (cmdSlot s)
    if 64 ≤ cmdSlot s then cmdErr s 3
    else if c.status == .loaded || (c.status == .parked && c.block != cmdBlock s) then cmdErr s 2
    else State.post { s with ctxcmd := putBit s.ctxcmd 62 true } (s.now + 1) .ctxcmdComplete
/-- Events of a context can still be counted: FADDs of its groups that are to be answered, matrix operations of its teams (08 R210). -/
def fxOpen (s : State) (slot : Nat) : Bool :=
  s.cores.any fun k => (k.engine.queue.any fun o => o.slot == slot)
    || k.sb.any fun e => e.slot == slot && !e.handed && e.atom.any fun a => a.op == .fadd
/-- The registers, counters and sequence numbers of a context go to its block. -/
def parkWrite (s : State) (slot : Nat) : State :=
  let c := s.ctx slot
  let v := parkBytes c
  (List.range 27).foldl (fun (s : State) k =>
    let (id, s) := s.fresh
    l2Arrive s ⟨id, c.block / 128 + 2 + k, slot, false, false, BitVec.ofNat 1024 (v / 256 ^ (128 * k)), fullMask, false, none,
      s.now + 1, .none, 0, false, false, false⟩) (s.modCtx slot fun c => { c with parking := false })
/-- PARK begins: what goes to the block is taken once every event of the context's groups is counted (08 R210; log 92). -/
def parkBegin (s : State) (w : Dword) : State :=
  if bit s.ctxcmd 62 then s
  else
    let s := cmdFields s w
    let slot := cmdSlot s
    let c := s.ctx slot
    let mine (grid : Nat) : Bool := ((s.grid? grid).map Grid.slot) == some slot
    if 64 ≤ slot || c.status != .loaded || (s.teams.any fun m => mine m.grid)
        || (bit s.evcmd 62 && bits s.evcmd 0 16 == c.num) then cmdErr s 3
    else
      let s : State := { s with ctxcmd := putBit s.ctxcmd 62 true }
      let s := s.modCtx slot fun c => { c with status := .parked, parking := true }
      (if fxOpen s slot then s else parkWrite s slot).post (s.now + 1) .ctxcmdComplete
/-- FORGET: arrivals, those that wait to be judged too, and launch port stores are refused from now on; kept launches are
discarded (log 31 for what was evicted or queued). -/
def forget (s : State) (w : Dword) : State :=
  if bit s.ctxcmd 62 then s
  else
    let s := cmdFields s w
    let slot := cmdSlot s
    if 64 ≤ slot || (s.ctx slot).status != .parked then cmdErr s 3
    else
      let mine (grid : Nat) : Bool := ((s.grid? grid).map Grid.slot) == some slot
      dropSlot { s with
        saved := s.saved.filter fun c => !mine c.cluster.grid
        queue := s.queue.filter fun q => !(if q.restore then s.saved.any fun c => c.id == q.target && mine c.cluster.grid else mine q.target)
        grids := s.grids.filter fun g => g.slot != slot
        graphs := s.graphs.filter fun g => g.slot != slot
        ctxs := setAt s.ctxs slot { Ctx.unknown with arrivals := (s.ctx slot).arrivals, ports := (s.ctx slot).ports } } slot

/-- The end of a LOAD: launches that were kept are accepted, evicted clusters are looked at (21 R400). -/
def loadDone (s : State) (slot : Nat) : State :=
  let mine := s.saved.filter fun c => ((s.grid? c.cluster.grid).map Grid.slot) == some slot
  let s := if (s.ctx slot).wake then mine.foldl queueRestore s
    else mine.foldl (fun (s : State) c => s.post s.now (.wakeEvaluate c.id)) s
  let s := s.modCtx slot fun c => { c with wake := false }
  ((s.post s.now (.launchAccept slot)).post s.now .dispatchRetry).wake
/-- CTXCMD COMPLETE: a LOAD reads and checks the block, a PARK has written it. -/
def ctxcmdComplete (s : State) : State :=
  let slot := cmdSlot s
  let c := s.ctx slot
  let again (s : State) : State := s.post (s.now + Config.pollTicks) .ctxcmdComplete
  if !bit s.ctxcmd 62 then s
  else if bits s.ctxcmd 60 2 == 2 then
    if c.parking then again (if fxOpen s slot then s else parkWrite s slot)
    else if blockBusy s slot then again s
    else
      let s := dropSlot (invalidate s ⟨0, s.self, c.num, .context⟩) slot
      { s with ctxcmd := putBit s.ctxcmd 62 false }
  else match readCtxBlock slot (cmdBlock s) 32 s with
    | (none, s) => again s
    | (some none, s) => cmdErr s 1
    | (some (some v), s) =>
      if blockInvalid v then cmdErr s 1
      else if (List.range 64).any fun i => i != slot && (s.ctx i).status != .unknown && (s.ctx i).num == field (blk v 0 8) 0 16 then cmdErr s 2
      else
        -- nothing of another context that the entry held serves this one (01 R35)
        let s := if c.status == .unknown then dropSlot s slot else s
        let s := s.modCtx slot fun c => blockCtx v (cmdBlock s) c
        loadDone { s with ctxcmd := putBit s.ctxcmd 62 false } slot

/-! ### The fault queue (15 R350) -/

/-- FQTAIL, read from the block: none while the read is pending, or the code of its failure. -/
def fqTail (s : State) (slot : Nat) : Option (Except Nat Nat) × State :=
  if blockBusy s slot then (none, s)
  else
    let pa := (s.ctx slot).block + 0x68
    match takeExpired s (pa / 128) false with
    | (some code, s) => (some (.error code), s)
    | (none, s) => match physRead s slot pa 8 false false with
      | (.pending, s) => (none, s)
      | (.lost, s) => (some (.error HOME_LOST), s)
      | (.data d _, s) => (some (.ok d.toNat), s)
/-- FQHEAD: the package holds it while the context is loaded, the block while it is parked (15 R354). -/
def fqHead (s : State) (slot : Nat) : Option Nat × State :=
  if (s.ctx slot).status == .loaded then (some (s.ctx slot).fqhead, s) else blockRead s slot 0x60 8
/-- FQ RETRY: the oldest record that waits. -/
def fqAppend (s : State) (slot : Nat) : State :=
  let c := s.ctx slot
  match c.fqwait with
  | [] => s
  | (ws, grid) :: rest =>
    let later (s : State) (d : Nat) : State := s.post (s.now + d) (.fqRetry slot)
    let next (s : State) : State :=
      let s := s.modCtx slot fun c => { c with fqwait := rest }
      if rest.isEmpty then s else s.post s.now (.fqRetry slot)
    -- the fault becomes a context error, with the code and detail of the access that failed; of a grid that is gone the host
    -- alone hears (15 R340)
    let die (s : State) (t : Trap) : State :=
      next (if (s.grid? grid).isNone then hostEvent s slot t.detail t.addr
        else endGrid s grid (BitVec.ofNat 16 (t.code + t.detail * 256)) true t.detail t.addr)
    match fqHead s slot with
    | (none, s) => later s Config.pollTicks
    | (some head, s) => match fqTail s slot with
      | (none, s) => later s Config.pollTicks
      | (some (.error code), s) => die s ⟨code, 0, BitVec.ofNat 64 (c.block + 0x68)⟩
      | (some (.ok tail), s) =>
        if (head + 2 ^ 64 - tail) % 2 ^ 64 == 2 ^ c.fqlog then
          later (blockWrite s slot 0x50 8 (2 ^ 33) (some .or)) 10000
        else
          let at_ := c.fqbase + BitVec.ofNat 64 (32 * (head % 2 ^ c.fqlog))
          match devWriteTo true s 0 slot true at_ 32 (packBits 64 (ws.map BitVec.toNat)) none with
          | (.pending, s) => later s Config.pollTicks
          | (.fault t, s) => die s t
          | (.ok _, s) =>
            let s := blockWrite s slot 0x60 8 ((head + 1) % 2 ^ 64) none
            let s := s.modCtx slot fun c => { c with fqhead := (head + 1) % 2 ^ 64 }
            next (if head == tail then hostEvent s slot 0 0 else s)

/-! ### The events -/

/-- 15 R352. -/
def execCtxcmdLoad (w : Dword) (s : State) : Host.Outcome State Fault Refusal := regAccess s fun s => loadBegin s w
/-- 15 R352. -/
def execCtxcmdPark (w : Dword) (s : State) : Host.Outcome State Fault Refusal := regAccess s fun s => parkBegin s w
/-- 15 R352. -/
def execCtxcmdForget (w : Dword) (s : State) : Host.Outcome State Fault Refusal := regAccess s fun s => forget s w
/-- 15 R352 to R354, 21 R400, R401. -/
def execCtxcmdComplete (s : State) : Host.Outcome State Fault Refusal := event s ctxcmdComplete
/-- 15 R351. -/
def execFqcmdReplay (w : Dword) (s : State) : Host.Outcome State Fault Refusal := regAccess s fun s => fqDispose s w
/-- 15 R351. -/
def execFqcmdDrop (w : Dword) (s : State) : Host.Outcome State Fault Refusal := regAccess s fun s => fqDispose s w
/-- 15 R350. -/
def execFqRetry (slot : Nat) (s : State) : Host.Outcome State Fault Refusal := event s fun s => fqAppend s slot

end Sys2Proof.Machine
end

