-- ==== Sys2Proof/Machine/FpOps.lean ====
section
/-! DEFINITION. Floating-point instructions: VF32, VF64, VFH (10 R250 to R252). -/
namespace Sys2Proof.Machine

/-- d := g a b, rounded once, in FP32 and in FP64. -/
def fp2 (s : State) (d a : VReg) (b : XOpnd) (g : BitVec 2 → FVal → FVal → FVal) : Res :=
  fpWrite s d 1 fun t L => f32.op t.rm [a32 t a L, b32 t b L] (g t.rm (a32 t a L).v (b32 t b L).v)
def dp2 (s : State) (d a : VReg) (b : XOpnd) (g : BitVec 2 → FVal → FVal → FVal) : Res :=
  fpWrite2 s d 0 fun t L => f64.op t.rm [a64 t a L, b64 t b L] (g t.rm (a64 t a L).v (b64 t b L).v)
/-- d := g d a b, rounded once (fused), in FP32 and in FP64. -/
def fp3 (s : State) (d a : VReg) (b : XOpnd) (g : BitVec 2 → FVal → FVal → FVal → FVal) : Res :=
  fpWrite s d 1 fun t L =>
    f32.op t.rm [a32 t a L, b32 t b L, a32 t d L] (g t.rm (a32 t d L).v (a32 t a L).v (b32 t b L).v)
def dp3 (s : State) (d a : VReg) (b : XOpnd) (g : BitVec 2 → FVal → FVal → FVal → FVal) : Res :=
  fpWrite2 s d 0 fun t L =>
    f64.op t.rm [a64 t a L, b64 t b L, a64 t d L] (g t.rm (a64 t d L).v (a64 t a L).v (b64 t b L).v)
/-- d := g a, rounded once, in FP32 and in FP64. -/
def fp1 (s : State) (d a : VReg) (g : FVal → FVal) : Res :=
  fpWrite s d 1 fun t L => f32.op t.rm [a32 t a L] (g (a32 t a L).v)
def dp1 (s : State) (d a : VReg) (g : FVal → FVal) : Res :=
  fpWrite2 s d 0 fun t L => f64.op t.rm [a64 t a L] (g (a64 t a L).v)
/-- The lesser or the greater (10 R251). -/
def fpMinMax (s : State) (d a : VReg) (b : XOpnd) (greater : Bool) : Res :=
  fpWrite s d 1 fun t L => f32.minmax greater (a32 t a L) (b32 t b L)
def dpMinMax (s : State) (d a : VReg) (b : XOpnd) (greater : Bool) : Res :=
  fpWrite2 s d 0 fun t L => f64.minmax greater (a64 t a L) (b64 t b L)
/-- A rounded to an integral value in a mode (10 R251). -/
def fpRound (s : State) (d a : VReg) (rm : BitVec 2) : Res := fpWrite s d 1 fun t L => f32.integral rm (a32 t a L)
def dpRound (s : State) (d a : VReg) (rm : BitVec 2) : Res := fpWrite2 s d 0 fun t L => f64.integral rm (a64 t a L)

def FVal.one : FVal := .fin false 1 0
def fadd (rm : BitVec 2) (x y : FVal) : FVal := fsum rm [x, y]
def fsub (rm : BitVec 2) (x y : FVal) : FVal := fsum rm [x, y.negate]
def fma (rm : BitVec 2) (z x y : FVal) : FVal := fsum rm [x.mul y, z]
def fms (rm : BitVec 2) (z x y : FVal) : FVal := fsum rm [x.mul y, z.negate]
def fnma (rm : BitVec 2) (z x y : FVal) : FVal := fsum rm [z, (x.mul y).negate]

/-- 10 R250. -/
def execVfadd (d : VReg) (a : VReg) (b : XOpnd) (s : State) : Host.Outcome State Fault Refusal :=
  issue userOnly [wV d 1, rV a 1, rX b] s fun s =>
    fp2 s d a b fadd

/-- 10 R250. -/
def execVfsub (d : VReg) (a : VReg) (b : XOpnd) (s : State) : Host.Outcome State Fault Refusal :=
  issue userOnly [wV d 1, rV a 1, rX b] s fun s =>
    fp2 s d a b fsub

/-- 10 R250. -/
def execVfmul (d : VReg) (a : VReg) (b : XOpnd) (s : State) : Host.Outcome State Fault Refusal :=
  issue userOnly [wV d 1, rV a 1, rX b] s fun s =>
    fp2 s d a b (fun _ => FVal.mul)

/-- 10 R250. -/
def execVfma (d : VReg) (a : VReg) (b : XOpnd) (s : State) : Host.Outcome State Fault Refusal :=
  issue userOnly [mV d 1, rV a 1, rX b] s fun s =>
    fp3 s d a b fma

/-- 10 R250. -/
def execVfms (d : VReg) (a : VReg) (b : XOpnd) (s : State) : Host.Outcome State Fault Refusal :=
  issue userOnly [mV d 1, rV a 1, rX b] s fun s =>
    fp3 s d a b fms

/-- 10 R250. -/
def execVfnma (d : VReg) (a : VReg) (b : XOpnd) (s : State) : Host.Outcome State Fault Refusal :=
  issue userOnly [mV d 1, rV a 1, rX b] s fun s =>
    fp3 s d a b fnma

/-- 10 R251. -/
def execVfmin (d : VReg) (a : VReg) (b : XOpnd) (s : State) : Host.Outcome State Fault Refusal :=
  issue userOnly [wV d 1, rV a 1, rX b] s fun s =>
    fpMinMax s d a b false

/-- 10 R251. -/
def execVfmax (d : VReg) (a : VReg) (b : XOpnd) (s : State) : Host.Outcome State Fault Refusal :=
  issue userOnly [wV d 1, rV a 1, rX b] s fun s =>
    fpMinMax s d a b true

/-- 10 R250. -/
def execVfabs (d : VReg) (a : VReg) (s : State) : Host.Outcome State Fault Refusal :=
  issue userOnly [wV d 1, rV a 1] s fun s =>
    fpWrite s d 1 fun t L => let x := a32 t a L; f32.sign [x] (x.bits % 2 ^ 31)

/-- 10 R250. -/
def execVfneg (d : VReg) (a : VReg) (s : State) : Host.Outcome State Fault Refusal :=
  issue userOnly [wV d 1, rV a 1] s fun s =>
    fpWrite s d 1 fun t L => let x := a32 t a L; f32.sign [x] (x.bits ^^^ 2 ^ 31)

/-- 10 R250. -/
def execVfcpsgn (d : VReg) (a : VReg) (b : XOpnd) (s : State) : Host.Outcome State Fault Refusal :=
  issue userOnly [wV d 1, rV a 1, rX b] s fun s =>
    fpWrite s d 1 fun t L =>
      let x := a32 t a L
      let y := b32 t b L
      f32.sign [x, y] (x.bits % 2 ^ 31 + y.bits / 2 ^ 31 * 2 ^ 31)

/-- 10 R250: n is an integer: it is poisoned by its P bit only -/
def execVfscale (d : VReg) (a : VReg) (b : XOpnd) (s : State) : Host.Outcome State Fault Refusal :=
  issue userOnly [wV d 1, rV a 1, rX b] s fun s =>
    fpWrite s d 1 fun t L =>
      let x := a32 t a L
      let n := t.getX b L
      f32.op t.rm [x, ⟨0, FVal.one, n.p⟩] (x.v.scale n.v.toInt)

/-- 10 R250. -/
def execVfrndn (d : VReg) (a : VReg) (s : State) : Host.Outcome State Fault Refusal :=
  issue userOnly [wV d 1, rV a 1] s fun s =>
    fpRound s d a RNE

/-- 10 R250. -/
def execVfrndz (d : VReg) (a : VReg) (s : State) : Host.Outcome State Fault Refusal :=
  issue userOnly [wV d 1, rV a 1] s fun s =>
    fpRound s d a RTZ

/-- 10 R250. -/
def execVfrndu (d : VReg) (a : VReg) (s : State) : Host.Outcome State Fault Refusal :=
  issue userOnly [wV d 1, rV a 1] s fun s =>
    fpRound s d a RUP

/-- 10 R250. -/
def execVfrndd (d : VReg) (a : VReg) (s : State) : Host.Outcome State Fault Refusal :=
  issue userOnly [wV d 1, rV a 1] s fun s =>
    fpRound s d a RDN

/-- 10 R250. -/
def execVfdiv (d : VReg) (a : VReg) (b : XOpnd) (s : State) : Host.Outcome State Fault Refusal :=
  issue userOnly [wV d 1, rV a 1, rX b] s fun s =>
    fp2 s d a b (fun _ => FVal.div)

/-- 10 R250. -/
def execVfsqrt (d : VReg) (a : VReg) (s : State) : Host.Outcome State Fault Refusal :=
  issue userOnly [wV d 1, rV a 1] s fun s =>
    fp1 s d a FVal.sqrt

/-- 10 R250. -/
def execVfrcp (d : VReg) (a : VReg) (s : State) : Host.Outcome State Fault Refusal :=
  issue userOnly [wV d 1, rV a 1] s fun s =>
    fp1 s d a (FVal.div FVal.one)

/-- 10 R250. -/
def execVfrsq (d : VReg) (a : VReg) (s : State) : Host.Outcome State Fault Refusal :=
  issue userOnly [wV d 1, rV a 1] s fun s =>
    fp1 s d a FVal.rsqrt

/-- 10 R250. -/
def execVdadd (d : VReg) (a : VReg) (b : XOpnd) (s : State) : Host.Outcome State Fault Refusal :=
  issue userOnly [wV d 2, rV a 2, rX64 b] s fun s =>
    dp2 s d a b fadd

/-- 10 R250. -/
def execVdsub (d : VReg) (a : VReg) (b : XOpnd) (s : State) : Host.Outcome State Fault Refusal :=
  issue userOnly [wV d 2, rV a 2, rX64 b] s fun s =>
    dp2 s d a b fsub

/-- 10 R250. -/
def execVdmul (d : VReg) (a : VReg) (b : XOpnd) (s : State) : Host.Outcome State Fault Refusal :=
  issue userOnly [wV d 2, rV a 2, rX64 b] s fun s =>
    dp2 s d a b (fun _ => FVal.mul)

/-- 10 R250. -/
def execVdfma (d : VReg) (a : VReg) (b : XOpnd) (s : State) : Host.Outcome State Fault Refusal :=
  issue userOnly [mV d 2, rV a 2, rX64 b] s fun s =>
    dp3 s d a b fma

/-- 10 R250. -/
def execVdfms (d : VReg) (a : VReg) (b : XOpnd) (s : State) : Host.Outcome State Fault Refusal :=
  issue userOnly [mV d 2, rV a 2, rX64 b] s fun s =>
    dp3 s d a b fms

/-- 10 R250. -/
def execVdfnma (d : VReg) (a : VReg) (b : XOpnd) (s : State) : Host.Outcome State Fault Refusal :=
  issue userOnly [mV d 2, rV a 2, rX64 b] s fun s =>
    dp3 s d a b fnma

/-- 10 R251. -/
def execVdmin (d : VReg) (a : VReg) (b : XOpnd) (s : State) : Host.Outcome State Fault Refusal :=
  issue userOnly [wV d 2, rV a 2, rX64 b] s fun s =>
    dpMinMax s d a b false

/-- 10 R251. -/
def execVdmax (d : VReg) (a : VReg) (b : XOpnd) (s : State) : Host.Outcome State Fault Refusal :=
  issue userOnly [wV d 2, rV a 2, rX64 b] s fun s =>
    dpMinMax s d a b true

/-- 10 R250. -/
def execVdabs (d : VReg) (a : VReg) (s : State) : Host.Outcome State Fault Refusal :=
  issue userOnly [wV d 2, rV a 2] s fun s =>
    fpWrite2 s d 0 fun t L => let x := a64 t a L; f64.sign [x] (x.bits % 2 ^ 63)

/-- 10 R250. -/
def execVdneg (d : VReg) (a : VReg) (s : State) : Host.Outcome State Fault Refusal :=
  issue userOnly [wV d 2, rV a 2] s fun s =>
    fpWrite2 s d 0 fun t L => let x := a64 t a L; f64.sign [x] (x.bits ^^^ 2 ^ 63)

/-- 10 R250: n is an integer: it is poisoned by its P bit only -/
def execVdscale (d : VReg) (a : VReg) (b : XOpnd) (s : State) : Host.Outcome State Fault Refusal :=
  issue userOnly [wV d 2, rV a 2, rX64 b] s fun s =>
    fpWrite2 s d 0 fun t L =>
      let x := a64 t a L
      let n := t.getX64 b L
      f64.op t.rm [x, ⟨0, FVal.one, n.p⟩] (x.v.scale n.v.toInt)

/-- 10 R250. -/
def execVdrndn (d : VReg) (a : VReg) (s : State) : Host.Outcome State Fault Refusal :=
  issue userOnly [wV d 2, rV a 2] s fun s =>
    dpRound s d a RNE

/-- 10 R250. -/
def execVdrndz (d : VReg) (a : VReg) (s : State) : Host.Outcome State Fault Refusal :=
  issue userOnly [wV d 2, rV a 2] s fun s =>
    dpRound s d a RTZ

/-- 10 R250. -/
def execVddiv (d : VReg) (a : VReg) (b : XOpnd) (s : State) : Host.Outcome State Fault Refusal :=
  issue userOnly [wV d 2, rV a 2, rX64 b] s fun s =>
    dp2 s d a b (fun _ => FVal.div)

/-- 10 R250. -/
def execVdsqrt (d : VReg) (a : VReg) (s : State) : Host.Outcome State Fault Refusal :=
  issue userOnly [wV d 2, rV a 2] s fun s =>
    dp1 s d a FVal.sqrt

/-- 10 R250. -/
def execVdrcp (d : VReg) (a : VReg) (s : State) : Host.Outcome State Fault Refusal :=
  issue userOnly [wV d 2, rV a 2] s fun s =>
    dp1 s d a (FVal.div FVal.one)

/-- 10 R250. -/
def execVdrsq (d : VReg) (a : VReg) (s : State) : Host.Outcome State Fault Refusal :=
  issue userOnly [wV d 2, rV a 2] s fun s =>
    dp1 s d a FVal.rsqrt

/-- The element format of VFH. -/
def halfFmt : HFmt → Fmt
  | .bf => bf16
  | .hf => f16
/-- Element k of a lane of a VFH operand. -/
def Fmt.half (f : Fmt) (x : Lane) (k : Nat) : FIn := f.read (bits x.v (16 * k) 16) false
def Fmt.halfPoison (f : Fmt) (x : Lane) : Bool := x.p || (f.half x 0).p || (f.half x 1).p
/-- Two results in one lane; a lane is poisoned as a whole (10 R252). -/
def Fmt.pair (f : Fmt) (p : Bool) (x y : Nat × Bool × Ev) : Nat × Bool × Ev :=
  if p then (f.poisonBits * 65537, true, Ev.none) else (x.1 + y.1 * 65536, false, x.2.2.add y.2.2)
/-- d := g a b per element. -/
def half2 (s : State) (h : HFmt) (d a : VReg) (b : XOpnd) (g : BitVec 2 → FIn → FIn → Nat × Bool × Ev) : Res :=
  let f := halfFmt h
  fpWrite s d f.cls fun t L =>
    let x := t.getV a L
    let y := t.getX b L
    f.pair (f.halfPoison x || f.halfPoison y) (g t.rm (f.half x 0) (f.half y 0)) (g t.rm (f.half x 1) (f.half y 1))

/-- 10 R252. -/
def execVhadd (t : HFmt) (d : VReg) (a : VReg) (b : XOpnd) (s : State) : Host.Outcome State Fault Refusal :=
  issue userOnly [wV d 1, rV a 1, rX b] s fun s =>
    half2 s t d a b fun rm x y => (halfFmt t).op rm [x, y] (fadd rm x.v y.v)

/-- 10 R252. -/
def execVhsub (t : HFmt) (d : VReg) (a : VReg) (b : XOpnd) (s : State) : Host.Outcome State Fault Refusal :=
  issue userOnly [wV d 1, rV a 1, rX b] s fun s =>
    half2 s t d a b fun rm x y => (halfFmt t).op rm [x, y] (fsub rm x.v y.v)

/-- 10 R252. -/
def execVhmul (t : HFmt) (d : VReg) (a : VReg) (b : XOpnd) (s : State) : Host.Outcome State Fault Refusal :=
  issue userOnly [wV d 1, rV a 1, rX b] s fun s =>
    half2 s t d a b fun rm x y => (halfFmt t).op rm [x, y] (x.v.mul y.v)

/-- 10 R252. -/
def execVhfma (t : HFmt) (d : VReg) (a : VReg) (b : XOpnd) (s : State) : Host.Outcome State Fault Refusal :=
  issue userOnly [mV d 1, rV a 1, rX b] s fun s =>
    let f := halfFmt t
    fpWrite s d f.cls fun t L =>
      let x := t.getV a L
      let y := t.getX b L
      let z := t.getV d L
      let r (k : Nat) : Nat × Bool × Ev :=
        f.op t.rm [f.half x k, f.half y k, f.half z k] (fma t.rm (f.half z k).v (f.half x k).v (f.half y k).v)
      f.pair (f.halfPoison x || f.halfPoison y || f.halfPoison z) (r 0) (r 1)

/-- 10 R252. -/
def execVhmin (t : HFmt) (d : VReg) (a : VReg) (b : XOpnd) (s : State) : Host.Outcome State Fault Refusal :=
  issue userOnly [wV d 1, rV a 1, rX b] s fun s =>
    half2 s t d a b fun _ x y => (halfFmt t).minmax false x y

/-- 10 R252. -/
def execVhmax (t : HFmt) (d : VReg) (a : VReg) (b : XOpnd) (s : State) : Host.Outcome State Fault Refusal :=
  issue userOnly [wV d 1, rV a 1, rX b] s fun s =>
    half2 s t d a b fun _ x y => (halfFmt t).minmax true x y

/-- 10 R252: D and the result are FP32 -/
def execVhdot2 (t : HFmt) (d : VReg) (a : VReg) (b : XOpnd) (s : State) : Host.Outcome State Fault Refusal :=
  issue userOnly [mV d 1, rV a 1, rX b] s fun s =>
    let f := halfFmt t
    fpWrite s d 1 fun t L =>
      let x := t.getV a L
      let y := t.getX b L
      let z := a32 t d L
      let ins := [z, ⟨0, (f.half x 0).v, f.halfPoison x⟩, ⟨0, (f.half y 0).v, f.halfPoison y⟩, f.half x 1, f.half y 1]
      f32.op t.rm ins
        (fsum t.rm [z.v, (f.half x 0).v.mul (f.half y 0).v, (f.half x 1).v.mul (f.half y 1).v])

end Sys2Proof.Machine
end

