-- ==== Sys2Proof/Machine/Cvt.lean ====
section
/-! DEFINITION. Conversions, classes, special functions and the activation table (10 R253 to R258). -/
namespace Sys2Proof.Machine

/-- One operand: a conversion to a format, rounded by FPCR. -/
def cvt (f : Fmt) (t : Thread) (x : FIn) : Nat × Bool × Ev := f.op t.rm [x] x.v
/-- A narrowing conversion: the old element of b moves up by the width of the target (10 R253). -/
def narrow (s : State) (f : Fmt) (d a : VReg) (b : XOpnd) : Res :=
  fpWrite s d f.cls fun t L =>
    let y := t.getX b L
    let x := a32 t a L
    let r := cvt f t ⟨x.bits, x.v, x.p || y.p⟩
    (y.v.toNat * 2 ^ f.width % 2 ^ 32 + r.1, r.2)
/-- A conversion to FP32 from the low bits of a lane, exact. -/
def widen (s : State) (f : Fmt) (d a : VReg) : Res :=
  fpWrite s d 1 fun t L => cvt f32 t (f.read (bits (t.getV a L).v 0 f.width) (t.getV a L).p)
/-- A saturated conversion to an integer of `w` bits: no events. -/
def toInt (w : Nat) (lo hi : Int) (t : Thread) (x : FIn) : Nat × Bool × Ev :=
  if x.p then (0, true, Ev.none) else ((BitVec.ofInt w (toIntSat t.rm lo hi x.v)).toNat, false, Ev.none)
/-- An integer as an operand. -/
def intIn (v : Int) (p : Bool) : FIn := ⟨0, FVal.ofInt v, p⟩

/-- 10 R253. -/
def execVcvtF64F32 (d : VReg) (a : VReg) (s : State) : Host.Outcome State Fault Refusal :=
  issue userOnly [wV d 2, rV a 1] s fun s =>
    fpWrite2 s d 0 fun t L => cvt f64 t (a32 t a L)

/-- 10 R253. -/
def execVcvtF32F64 (d : VReg) (a : VReg) (s : State) : Host.Outcome State Fault Refusal :=
  issue userOnly [wV d 1, rV a 2] s fun s =>
    fpWrite s d 1 fun t L => cvt f32 t (a64 t a L)

/-- 10 R253. -/
def execVcvtBf16F32 (d : VReg) (a : VReg) (b : XOpnd) (s : State) : Host.Outcome State Fault Refusal :=
  issue userOnly [wV d 1, rV a 1, rX b] s fun s =>
    narrow s bf16 d a b

/-- 10 R253. -/
def execVcvtF32Bf16 (d : VReg) (a : VReg) (s : State) : Host.Outcome State Fault Refusal :=
  issue userOnly [wV d 1, rV a 1] s fun s =>
    widen s bf16 d a

/-- 10 R253. -/
def execVcvtF16F32 (d : VReg) (a : VReg) (b : XOpnd) (s : State) : Host.Outcome State Fault Refusal :=
  issue userOnly [wV d 1, rV a 1, rX b] s fun s =>
    narrow s f16 d a b

/-- 10 R253. -/
def execVcvtF32F16 (d : VReg) (a : VReg) (s : State) : Host.Outcome State Fault Refusal :=
  issue userOnly [wV d 1, rV a 1] s fun s =>
    widen s f16 d a

/-- 10 R253. -/
def execVcvtE4m3F32 (d : VReg) (a : VReg) (b : XOpnd) (s : State) : Host.Outcome State Fault Refusal :=
  issue userOnly [wV d 1, rV a 1, rX b] s fun s =>
    narrow s e4m3 d a b

/-- 10 R253. -/
def execVcvtE5m2F32 (d : VReg) (a : VReg) (b : XOpnd) (s : State) : Host.Outcome State Fault Refusal :=
  issue userOnly [wV d 1, rV a 1, rX b] s fun s =>
    narrow s e5m2 d a b

/-- 10 R253. -/
def execVcvtF32E4m3 (d : VReg) (a : VReg) (s : State) : Host.Outcome State Fault Refusal :=
  issue userOnly [wV d 1, rV a 1] s fun s =>
    widen s e4m3 d a

/-- 10 R253. -/
def execVcvtF32E5m2 (d : VReg) (a : VReg) (s : State) : Host.Outcome State Fault Refusal :=
  issue userOnly [wV d 1, rV a 1] s fun s =>
    widen s e5m2 d a

/-- 10 R253. -/
def execVcvtS32F32 (d : VReg) (a : VReg) (s : State) : Host.Outcome State Fault Refusal :=
  issue userOnly [wV d 1, rV a 1] s fun s =>
    fpWrite s d 1 fun t L => toInt 32 (-2 ^ 31) (2 ^ 31 - 1) t (a32 t a L)

/-- 10 R253. -/
def execVcvtU32F32 (d : VReg) (a : VReg) (s : State) : Host.Outcome State Fault Refusal :=
  issue userOnly [wV d 1, rV a 1] s fun s =>
    fpWrite s d 1 fun t L => toInt 32 0 (2 ^ 32 - 1) t (a32 t a L)

/-- 10 R253. -/
def execVcvtF32S32 (d : VReg) (a : VReg) (s : State) : Host.Outcome State Fault Refusal :=
  issue userOnly [wV d 1, rV a 1] s fun s =>
    fpWrite s d 1 fun t L => cvt f32 t (intIn (t.getV a L).v.toInt (t.getV a L).p)

/-- 10 R253. -/
def execVcvtF32U32 (d : VReg) (a : VReg) (s : State) : Host.Outcome State Fault Refusal :=
  issue userOnly [wV d 1, rV a 1] s fun s =>
    fpWrite s d 1 fun t L => cvt f32 t (intIn (Int.ofNat (t.getV a L).v.toNat) (t.getV a L).p)

/-- 10 R253. -/
def execVcvtS64F64 (d : VReg) (a : VReg) (s : State) : Host.Outcome State Fault Refusal :=
  issue userOnly [wV d 2, rV a 2] s fun s =>
    fpWrite2 s d 0 fun t L => toInt 64 (-2 ^ 63) (2 ^ 63 - 1) t (a64 t a L)

/-- 10 R253. -/
def execVcvtF64S64 (d : VReg) (a : VReg) (s : State) : Host.Outcome State Fault Refusal :=
  issue userOnly [wV d 2, rV a 2] s fun s =>
    fpWrite2 s d 0 fun t L => cvt f64 t (intIn (t.getV2 a L).v.toInt (t.getV2 a L).p)

/-- 10 R253. -/
def execVcvtS32F64 (d : VReg) (a : VReg) (s : State) : Host.Outcome State Fault Refusal :=
  issue userOnly [wV d 1, rV a 2] s fun s =>
    fpWrite s d 1 fun t L => toInt 32 (-2 ^ 31) (2 ^ 31 - 1) t (a64 t a L)

/-- 10 R253. -/
def execVcvtF64S32 (d : VReg) (a : VReg) (s : State) : Host.Outcome State Fault Refusal :=
  issue userOnly [wV d 2, rV a 1] s fun s =>
    fpWrite2 s d 0 fun t L => cvt f64 t (intIn (t.getV a L).v.toInt (t.getV a L).p)

/-- The class bit of a value (10 R254). -/
def Fmt.classBit (f : Fmt) (x : FIn) : Nat :=
  let neg := x.bits / f.signBit % 2 == 1
  let e := x.bits / 2 ^ f.mb % 2 ^ f.eb
  let m := x.bits % 2 ^ f.mb
  if x.p then 10
  else if e == 2 ^ f.eb - 1 then
    (if m == 0 then (if neg then 0 else 7) else if m < 2 ^ (f.mb - 1) then 8 else 9)
  else if e == 0 then
    (if m == 0 then (if neg then 3 else 4) else if neg then 2 else 5)
  else if neg then 1 else 6

/-- 10 R254. -/
def execVfclass (d : VReg) (a : VReg) (s : State) : Host.Outcome State Fault Refusal :=
  issue userOnly [wV d 1, rV a 1] s fun s =>
    .ok { s with cur := s.cur.putV d fun L => ⟨BitVec.ofNat 32 (2 ^ f32.classBit (a32 s.cur a L)), false⟩ }

/-- 10 R254. -/
def execVdclass (d : VReg) (a : VReg) (s : State) : Host.Outcome State Fault Refusal :=
  issue userOnly [wV d 1, rV a 2] s fun s =>
    .ok { s with cur := s.cur.putV d fun L => ⟨BitVec.ofNat 32 (2 ^ f64.classBit (a64 s.cur a L)), false⟩ }

/-- A special function, rounded to nearest even (10 R255). -/
def special (s : State) (d a : VReg) (g : FVal → FVal) : Res :=
  fpWrite s d 1 fun t L => f32.op RNE [a32 t a L] (g (a32 t a L).v)

/-- 10 R255. -/
def execVexp2 (d : VReg) (a : VReg) (s : State) : Host.Outcome State Fault Refusal :=
  issue userOnly [wV d 1, rV a 1] s fun s =>
    special s d a FVal.exp2

/-- 10 R255. -/
def execVlog2 (d : VReg) (a : VReg) (s : State) : Host.Outcome State Fault Refusal :=
  issue userOnly [wV d 1, rV a 1] s fun s =>
    special s d a FVal.log2

/-- 10 R255. -/
def execVsin (d : VReg) (a : VReg) (s : State) : Host.Outcome State Fault Refusal :=
  issue userOnly [wV d 1, rV a 1] s fun s =>
    special s d a FVal.sinpi

/-- 10 R255. -/
def execVcos (d : VReg) (a : VReg) (s : State) : Host.Outcome State Fault Refusal :=
  issue userOnly [wV d 1, rV a 1] s fun s =>
    special s d a FVal.cospi

/-- The segment of u, and u − i (10 R257). -/
def segment (u : FVal) : Nat :=
  let one := FVal.one
  if !(one.lt u || one.eq u) then 0
  else if (FVal.ofInt 31).lt u || (FVal.ofInt 31).eq u then 31
  else
    match u with
    | .fin _ m e => if 0 ≤ e then m * 2 ^ e.toNat else m / 2 ^ (-e).toNat
    | _ => 0
/-- One step of TEVAL, rounded to FP32 by nearest even. -/
def rne32 (x : FVal) : FVal := f32.value (f32.result RNE x true true).1
/-- TEVAL in one lane: NAN and INF events of its result only (10 R257). -/
def teval (g : ActTable) (x : FIn) : Nat × Bool × Ev :=
  let rd (w : Word) (p : Bool) : FIn := f32.read w.toNat p
  let xlo := rd g.xlo g.p
  let xs := rd g.xscale g.p
  let u := rne32 ((rne32 (fsub RNE x.v xlo.v)).mul xs.v)
  let i := segment u
  let c (k : Nat) : FIn := let l := g.coef.getD (3 * i + k) Lane.zero; rd l.v l.p
  let t := rne32 (fsub RNE u (FVal.ofInt (Int.ofNat i)))
  let y := rne32 (fma RNE (c 1).v t (c 2).v)
  let r := f32.op RNE [x, xlo, xs, c 0, c 1, c 2] (fma RNE (c 0).v t y)
  (r.1, r.2.1, ⟨r.2.2.nan, r.2.2.inf, 0, 0⟩)

/-- 10 R257. -/
def execTeval (d : VReg) (a : VReg) (s : State) : Host.Outcome State Fault Refusal :=
  issue userOnly [wV d 1, rV a 1] s fun s =>
    match s.team? s.cur.team with
    | none => .ok s
    | some m => fpWrite s d 1 fun t L => teval m.act (a32 t a L)

/-- 10 R256: the next generation is current at once: nothing issues between (log 2) -/
def execTld (a : VReg) (b : SReg) (s : State) : Host.Outcome State Fault Refusal :=
  issue userOnly [rV a 1, rS b] s fun s =>
    let t := s.cur
    let h := t.getS b
    .ok (s.modTeam t.team fun m => { m with act :=
      { xlo := h.v.truncate 32, xscale := (h.v >>> 32).truncate 32, p := h.p
        coef := mapFrom (fun L old => if t.mask.getLsbD L then t.getV a L else old) 0 m.act.coef } })

end Sys2Proof.Machine
end

