-- ==== Sys2Proof/Machine/Vmem.lean ====
section
/-! DEFINITION. Vector loads, stores and global atomics (11 R265, R266, R269 to R275). -/
namespace Sys2Proof.Machine

/-- The address of a lane (11 R265): whether its base scalar or its own operand is poisoned, and the sum modulo 2^64. -/
def laneAddr (t : Thread) (adr : VAddr) (L : Nat) : SVal :=
  match adr with
  | .base a b => ⟨(t.getS a).v + (t.getX64 b L).v, (t.getX64 b L).p⟩
  | .pair a => t.getV2 a L
def basePoison (t : Thread) : VAddr → Bool
  | .base a _ => (t.getS a).p
  | .pair _ => false
/-- n registers of a lane from vr, lowest first, and whether one of them is poisoned. -/
def laneData (t : Thread) (r : VReg) (n L : Nat) : Nat × Bool :=
  (List.range n).foldl (fun x i =>
    let l := t.lane (t.wbase + r.val + i) L
    (x.1 + l.v.toNat * 2 ^ (32 * i), x.2 || l.p)) (0, false)
/-- Registers that n bytes take (11 R269). -/
def regsOf (n : Nat) : Nat := if n ≤ 4 then 1 else n / 4
/-- Steps 1 and 2 of 11 R266, then the log entry: `regs` registers of d are read. -/
def vectorIssue (s : State) (op : MemOp) (dst : Dst) (adr : VAddr) (n : Nat) (d : VReg) (regs : Nat) : Res :=
  let t := s.cur
  let ls := lanesOf t.mask
  if basePoison t adr || ls.any (fun L => (laneAddr t adr L).p) then .trap s poisonTrap
  else match ls.find? fun L => (laneAddr t adr L).v.toNat % n != 0 with
    | some L => .trap s ⟨MISALIGNED, 0, (laneAddr t adr L).v⟩
    | none =>
      let all := List.range 96
      let on (L : Nat) : Bool := t.mask.getLsbD L
      logIssue s op dst false t.mask (all.map fun L => if on L then (laneAddr t adr L).v else 0)
        (all.map fun L => if on L then BitVec.ofNat 128 (laneData t d regs L).1 else 0)
        (lanesWhere fun L => on L && (laneData t d regs L).2) 0 [] 0 0
/-- A destination of n registers from vd (02 R46). -/
def vecDst (t : Thread) (d : VReg) (n : Nat) : Dst := .vec (t.wbase + d.val) n
/-- A vector load of n bytes a lane. -/
def vectorLoad (s : State) (h : Hint) (d : VReg) (adr : VAddr) (n : Nat) : Res :=
  vectorIssue s (.load n h) (vecDst s.cur d (regsOf n)) adr n d 0
/-- A vector store of n bytes a lane. -/
def vectorStore (s : State) (h : Hint) (d : VReg) (adr : VAddr) (n : Nat) : Res :=
  vectorIssue s (.store n h) .none adr n d (regsOf n)
/-- A global atomic: `regs` registers of d are operands, the first `res` of them receive the old value (11 R273). -/
def vectorAtom (s : State) (op : AtomOp) (d : VReg) (adr : VAddr) (n regs res : Nat) : Res :=
  vectorIssue s (.atom op n) (vecDst s.cur d res) adr n d regs

/-- 11 R270. -/
def execVldb (h : Hint) (d : VReg) (adr : VAddr) (s : State) : Host.Outcome State Fault Refusal :=
  issue userOnly (wV d 1 :: adr.uses) s fun s =>
    vectorLoad s h d adr 1

/-- 11 R270. -/
def execVldh (h : Hint) (d : VReg) (adr : VAddr) (s : State) : Host.Outcome State Fault Refusal :=
  issue userOnly (wV d 1 :: adr.uses) s fun s =>
    vectorLoad s h d adr 2

/-- 11 R270. -/
def execVldw (h : Hint) (d : VReg) (adr : VAddr) (s : State) : Host.Outcome State Fault Refusal :=
  issue userOnly (wV d 1 :: adr.uses) s fun s =>
    vectorLoad s h d adr 4

/-- 11 R270. -/
def execVldd (h : Hint) (d : VReg) (adr : VAddr) (s : State) : Host.Outcome State Fault Refusal :=
  issue userOnly (wV d 2 :: adr.uses) s fun s =>
    vectorLoad s h d adr 8

/-- 11 R270. -/
def execVldq (h : Hint) (d : VReg) (adr : VAddr) (s : State) : Host.Outcome State Fault Refusal :=
  issue userOnly (wV d 4 :: adr.uses) s fun s =>
    vectorLoad s h d adr 16

/-- 11 R270. -/
def execVstb (h : Hint) (d : VReg) (adr : VAddr) (s : State) : Host.Outcome State Fault Refusal :=
  issue userOnly (rV d 1 :: adr.uses) s fun s =>
    vectorStore s h d adr 1

/-- 11 R270. -/
def execVsth (h : Hint) (d : VReg) (adr : VAddr) (s : State) : Host.Outcome State Fault Refusal :=
  issue userOnly (rV d 1 :: adr.uses) s fun s =>
    vectorStore s h d adr 2

/-- 11 R270. -/
def execVstw (h : Hint) (d : VReg) (adr : VAddr) (s : State) : Host.Outcome State Fault Refusal :=
  issue userOnly (rV d 1 :: adr.uses) s fun s =>
    vectorStore s h d adr 4

/-- 11 R270. -/
def execVstd (h : Hint) (d : VReg) (adr : VAddr) (s : State) : Host.Outcome State Fault Refusal :=
  issue userOnly (rV d 2 :: adr.uses) s fun s =>
    vectorStore s h d adr 8

/-- 11 R270. -/
def execVstq (h : Hint) (d : VReg) (adr : VAddr) (s : State) : Host.Outcome State Fault Refusal :=
  issue userOnly (rV d 4 :: adr.uses) s fun s =>
    vectorStore s h d adr 16

/-- 11 R273. -/
def execAtomAddW (d : VReg) (adr : VAddr) (s : State) : Host.Outcome State Fault Refusal :=
  issue userOnly (mV d 1 :: adr.uses) s fun s =>
    vectorAtom s .add d adr 4 1 1

/-- 11 R273. -/
def execAtomAddD (d : VReg) (adr : VAddr) (s : State) : Host.Outcome State Fault Refusal :=
  issue userOnly (mV d 2 :: adr.uses) s fun s =>
    vectorAtom s .add d adr 8 2 2

/-- 11 R273. -/
def execAtomMinW (d : VReg) (adr : VAddr) (s : State) : Host.Outcome State Fault Refusal :=
  issue userOnly (mV d 1 :: adr.uses) s fun s =>
    vectorAtom s .min d adr 4 1 1

/-- 11 R273. -/
def execAtomMaxW (d : VReg) (adr : VAddr) (s : State) : Host.Outcome State Fault Refusal :=
  issue userOnly (mV d 1 :: adr.uses) s fun s =>
    vectorAtom s .max d adr 4 1 1

/-- 11 R273. -/
def execAtomMinuW (d : VReg) (adr : VAddr) (s : State) : Host.Outcome State Fault Refusal :=
  issue userOnly (mV d 1 :: adr.uses) s fun s =>
    vectorAtom s .minu d adr 4 1 1

/-- 11 R273. -/
def execAtomMaxuW (d : VReg) (adr : VAddr) (s : State) : Host.Outcome State Fault Refusal :=
  issue userOnly (mV d 1 :: adr.uses) s fun s =>
    vectorAtom s .maxu d adr 4 1 1

/-- 11 R273. -/
def execAtomMinD (d : VReg) (adr : VAddr) (s : State) : Host.Outcome State Fault Refusal :=
  issue userOnly (mV d 2 :: adr.uses) s fun s =>
    vectorAtom s .min d adr 8 2 2

/-- 11 R273. -/
def execAtomMaxD (d : VReg) (adr : VAddr) (s : State) : Host.Outcome State Fault Refusal :=
  issue userOnly (mV d 2 :: adr.uses) s fun s =>
    vectorAtom s .max d adr 8 2 2

/-- 11 R273. -/
def execAtomAndW (d : VReg) (adr : VAddr) (s : State) : Host.Outcome State Fault Refusal :=
  issue userOnly (mV d 1 :: adr.uses) s fun s =>
    vectorAtom s .and d adr 4 1 1

/-- 11 R273. -/
def execAtomOrW (d : VReg) (adr : VAddr) (s : State) : Host.Outcome State Fault Refusal :=
  issue userOnly (mV d 1 :: adr.uses) s fun s =>
    vectorAtom s .or d adr 4 1 1

/-- 11 R273. -/
def execAtomXorW (d : VReg) (adr : VAddr) (s : State) : Host.Outcome State Fault Refusal :=
  issue userOnly (mV d 1 :: adr.uses) s fun s =>
    vectorAtom s .xor d adr 4 1 1

/-- 11 R273. -/
def execAtomAndD (d : VReg) (adr : VAddr) (s : State) : Host.Outcome State Fault Refusal :=
  issue userOnly (mV d 2 :: adr.uses) s fun s =>
    vectorAtom s .and d adr 8 2 2

/-- 11 R273. -/
def execAtomOrD (d : VReg) (adr : VAddr) (s : State) : Host.Outcome State Fault Refusal :=
  issue userOnly (mV d 2 :: adr.uses) s fun s =>
    vectorAtom s .or d adr 8 2 2

/-- 11 R273. -/
def execAtomXorD (d : VReg) (adr : VAddr) (s : State) : Host.Outcome State Fault Refusal :=
  issue userOnly (mV d 2 :: adr.uses) s fun s =>
    vectorAtom s .xor d adr 8 2 2

/-- 11 R273. -/
def execAtomSwapW (d : VReg) (adr : VAddr) (s : State) : Host.Outcome State Fault Refusal :=
  issue userOnly (mV d 1 :: adr.uses) s fun s =>
    vectorAtom s .swap d adr 4 1 1

/-- 11 R273. -/
def execAtomSwapD (d : VReg) (adr : VAddr) (s : State) : Host.Outcome State Fault Refusal :=
  issue userOnly (mV d 2 :: adr.uses) s fun s =>
    vectorAtom s .swap d adr 8 2 2

/-- 11 R273. -/
def execAtomCasW (d : VReg) (adr : VAddr) (s : State) : Host.Outcome State Fault Refusal :=
  issue userOnly (mV d 2 :: adr.uses) s fun s =>
    vectorAtom s .cas d adr 4 2 1

/-- 11 R273. -/
def execAtomCasD (d : VReg) (adr : VAddr) (s : State) : Host.Outcome State Fault Refusal :=
  issue userOnly (mV d 4 :: adr.uses) s fun s =>
    vectorAtom s .cas d adr 8 4 2

/-- 11 R273. -/
def execAtomFaddF32 (d : VReg) (adr : VAddr) (s : State) : Host.Outcome State Fault Refusal :=
  issue userOnly (mV d 1 :: adr.uses) s fun s =>
    vectorAtom s .fadd d adr 4 1 1

/-- 11 R273. -/
def execAtomFaddF64 (d : VReg) (adr : VAddr) (s : State) : Host.Outcome State Fault Refusal :=
  issue userOnly (mV d 2 :: adr.uses) s fun s =>
    vectorAtom s .fadd d adr 8 2 2

/-- 11 R273. -/
def execAtomFminF32 (d : VReg) (adr : VAddr) (s : State) : Host.Outcome State Fault Refusal :=
  issue userOnly (mV d 1 :: adr.uses) s fun s =>
    vectorAtom s .fmin d adr 4 1 1

/-- 11 R273. -/
def execAtomFmaxF32 (d : VReg) (adr : VAddr) (s : State) : Host.Outcome State Fault Refusal :=
  issue userOnly (mV d 1 :: adr.uses) s fun s =>
    vectorAtom s .fmax d adr 4 1 1

end Sys2Proof.Machine
end

