-- ==== Sys2Proof/Machine/Memctl.lean ====
section
/-! DEFINITION. Fences, cache maintenance, prefetch and the four remote instructions (11 R279 to R287). -/
namespace Sys2Proof.Machine

/-- The checks of 11 R281 on a range: its first byte and its length. -/
def rangeIssue (s : State) (a : SReg) (b : Option SReg) (cap : Bool) (k : Nat → Nat → Res) : Res :=
  let x := s.cur.getS a
  let len := (b.map fun r => s.cur.getS r).getD ⟨1, false⟩
  if x.p || len.p then .trap s poisonTrap
  else if cap && 2097152 < len.v.toNat then .trap s ⟨ACCESS_VIOLATION, 0x40, 0⟩
  else k x.v.toNat (min len.v.toNat 2097152)
/-- CFLUSH, CINV, ICINV: one log entry that walks the lines of its range (11 R282, R284). -/
def rangeOp (s : State) (op : MemOp) (a : SReg) (b : Option SReg) : Res :=
  rangeIssue s a b true fun at_ len =>
    if len == 0 then .ok s
    else logIssue s op .none true 1 [BitVec.ofNat 64 at_] [0] 0 0 [] at_ (at_ + len)
/-- Prefetch one line for a context entry on a core: a line in the package L2 is left as it is, and one whose translation
fails is skipped. One whose translation, or whose way in the L2, is not at hand is kept for later, and while the core's replay buffer is full it
sends none (11 R268): PREF does not wait (11 R283). -/
def prefetchAt (core : Nat) (p : Pref) (s : State) : State :=
  let later (s : State) : State := s.modCore core fun k => { k with prefs := k.prefs ++ [p] }
  if replayFull s core then later s
  else match xlatNow s (dieOf core) p.slot (BitVec.ofNat 64 p.va) .read p.sup with
  | (.ok pa cen, s) =>
    let line := pa / 128
    let nc := inWindow (s.ctx p.slot) p.va
    let unt := if nc && !isLocal s line then some p.slot else none
    if isRegLine s line || (s.l2get line unt).isSome then s
    else if isLocal s line then
      if unreadable s line then later s
      else if 2 ≤ dState (metaOf s line) then s
      else match localLine s p.slot line cen false with
        | (some _, s) => s
        | (none, s) => later s
    else if homeLost s line || s.reqs.any (fun r => !r.ended && r.line == line && r.copyOf == some unt) then s
    else
      let r := askLine s p.slot line nc cen .prf
      r.modCore core fun k => { k with prfs := newReqs s r ++ k.prfs.filter fun i => s.reqs.any fun q => q.id == i && !q.ended }
  | (.pending, s) => later s
  | (.fault _, s) => s
/-- Prefetch one line as the thread that is checked out. -/
def prefetchLine (s : State) (va : Nat) : State :=
  prefetchAt s.cur.core ⟨s.slotOf s.cur, va, s.cur.mode == .sup⟩ s
/-- The prefetches that are kept are looked at again (log 2). -/
def prefetchAgain (s : State) : State :=
  if s.cores.all fun k => k.prefs.isEmpty then s
  else (List.range s.cores.length).foldl (fun s c =>
    let ps := (s.core c).prefs
    if ps.isEmpty then s
    else ps.foldl (fun s p => prefetchAt c p s) (s.modCore c fun k => { k with prefs := [] })) s
/-- The lines of [a, a + len). -/
def linesOf (at_ len : Nat) : List Nat := (List.range ((at_ % 128 + len + 127) / 128)).map fun i => at_ / 128 * 128 + 128 * i

/-- 11 R279. -/
def execFenceCore (s : State) : Host.Outcome State Fault Refusal :=
  issue anyMode [] s fun s =>
    fence .core s

/-- 11 R279. -/
def execFencePkg (s : State) : Host.Outcome State Fault Refusal :=
  issue anyMode [] s fun s =>
    fence .pkg s

/-- 11 R280. -/
def execFenceSpan (s : State) : Host.Outcome State Fault Refusal :=
  issue anyMode [] s fun s =>
    fence .span s

/-- 11 R282. -/
def execCflush (a : SReg) (b : Option SReg) (s : State) : Host.Outcome State Fault Refusal :=
  issue userSup (rS a :: optS b) s fun s =>
    rangeOp s .cflush a b

/-- 11 R282. -/
def execCinv (a : SReg) (b : Option SReg) (s : State) : Host.Outcome State Fault Refusal :=
  issue userSup (rS a :: optS b) s fun s =>
    rangeOp s .cinv a b

/-- 11 R284. -/
def execIcinv (a : SReg) (b : Option SReg) (s : State) : Host.Outcome State Fault Refusal :=
  issue userSup (rS a :: optS b) s fun s =>
    rangeOp s .icinv a b

/-- 11 R283. -/
def execPref (a : SReg) (b : Option SReg) (s : State) : Host.Outcome State Fault Refusal :=
  issue userSup (rS a :: optS b) s fun s =>
    rangeIssue s a b false fun at_ len => .ok (if len == 0 then s else (linesOf at_ len).foldl prefetchLine s)

/-- The log entry of an RPUT, RGET or RATOM of some lanes: each lane's window and offset, and its n registers of data. -/
def remoteLog (s : State) (op : MemOp) (dst : Dst) (lanes : LaneMask) (desc : Dword) (win : Nat) (w : List Dword)
    (offs : List (Nat × Nat)) (data : Nat → Nat × Bool) : Res :=
  logIssue s op dst false lanes ((List.range 96).map fun L => winAddr win ((offs.find? fun o => o.1 == L).elim 0 Prod.snd))
    ((List.range 96).map fun L => BitVec.ofNat 128 (data L).1) (lanesWhere fun L => (data L).2) desc w 0 0

/-- 11 R285. -/
def execRput (d : VReg) (a : SReg) (b : XOpnd) (s : State) : Host.Outcome State Fault Refusal :=
  issue userOnly [rV d 1, rS a, rX64 b] s fun s =>
    remoteIssue s a b s.cur.mask 4 2 false fun s win w offs =>
      let slot := s.slotOf s.cur
      let blocks := blocksOf (winBase w) offs
      match takeStream s slot (winDspan w) (winDpkg w) (winDctx w) with
      | none => .wait s (.streamTable win)
      | some (e, _) =>
        if countsOverflow s e blocks.length then .trap s ⟨REMOTE_WINDOW, 3, winAddr win ((offs.head?.map Prod.snd).getD 0)⟩
        else remoteLog s .rput .none s.cur.mask (s.cur.getS a).v win w offs (laneData s.cur d 1)

/-- 11 R285: every active lane is checked, and the pair of the lowest is written -/
def execRputf (d : VReg) (a : SReg) (b : XOpnd) (s : State) : Host.Outcome State Fault Refusal :=
  issue userOnly [rV d 2, rS a, rX64 b] s fun s =>
    remoteIssue s a b s.cur.mask 8 2 false fun s win w offs =>
      let slot := s.slotOf s.cur
      match takeStream s slot (winDspan w) (winDpkg w) (winDctx w) with
      | none => .wait s (.streamTable win)
      | some (e, _) =>
        if 4 ≤ e.flags.length then .wait s (.streamTable win)
        else
          remoteLog s .rputf .none ((lowest s.cur.mask).elim 0 laneBit) (s.cur.getS a).v win w offs (laneData s.cur d 2)

/-- 11 R287. -/
def execRget (d : VReg) (a : SReg) (b : XOpnd) (s : State) : Host.Outcome State Fault Refusal :=
  issue userOnly [wV d 1, rS a, rX64 b] s fun s =>
    remoteIssue s a b s.cur.mask 4 1 false fun s win w offs =>
      remoteLog s .rget (vecDst s.cur d 1) s.cur.mask (s.cur.getS a).v win w offs fun _ => (0, false)

/-- The operation of an RATOM descriptor (11 R285). -/
def ratomOp (n : Nat) : AtomOp :=
  match n with
  | 0 => .add
  | 1 => .swap
  | 2 => .and
  | 3 => .or
  | 4 => .xor
  | 5 => .min
  | _ => .max

/-- 11 R287. -/
def execRatom (d : VReg) (a : SReg) (b : XOpnd) (s : State) : Host.Outcome State Fault Refusal :=
  issue userOnly [mV d 2, rS a, rX64 b] s fun s =>
    remoteIssue s a b s.cur.mask 8 3 true fun s win w offs =>
      let desc := (s.cur.getS a).v
      remoteLog s (.ratom (ratomOp (bits desc 8 4))) (vecDst s.cur d 2) s.cur.mask desc win w offs (laneData s.cur d 2)

end Sys2Proof.Machine
end

