-- ==== Sys2Proof/Machine/Crypto.lean ====
section
/-! DEFINITION. SHA-256 and the verification of an ECDSA signature on P-256, which the boot ROM and the attestation unit use
(17 R370 to R372; the algorithms are those that these names stand for, log 37). -/
namespace Sys2Proof.Machine

/-! ### SHA-256 -/

/-- The first primes: 64 of them stand below 312. -/
def smallPrimes : List Nat := (List.range 312).filter fun n => 2 ≤ n && (List.range 18).all fun d => d < 2 || n ≤ d || n % d != 0
/-- The greatest r with r^k at most n whose bits above the lowest b are those of the r given. -/
def rootFrom (k n : Nat) : Nat → Nat → Nat
  | 0, r => r
  | b + 1, r => rootFrom k n b (if (r + 2 ^ b) ^ k ≤ n then r + 2 ^ b else r)
/-- The first 32 bits of the fraction of the k-th root of p. -/
def rootFraction (k p : Nat) : Word := BitVec.ofNat 32 (rootFrom k (p * 2 ^ (32 * k)) 40 0)
/-- The constants of the rounds: of the cube roots of the first 64 primes. -/
def shaK : List Word := smallPrimes.map (rootFraction 3)
/-- The words that a digest starts from: of the square roots of the first eight. -/
def shaStart : List Word := (smallPrimes.take 8).map (rootFraction 2)
/-- The message schedule: `n` more words after the last 16, newest first. -/
def shaExpand : Nat → List Word → List Word
  | 0, w => w
  | n + 1, w =>
    let a := w.getD 14 0
    let b := w.getD 1 0
    let s0 := a.rotateRight 7 ^^^ a.rotateRight 18 ^^^ (a >>> 3)
    let s1 := b.rotateRight 17 ^^^ b.rotateRight 19 ^^^ (b >>> 10)
    shaExpand n ((w.getD 15 0 + s0 + w.getD 6 0 + s1) :: w)
/-- One round on the eight working words. -/
def shaRound (v : List Word) (kw : Word) : List Word :=
  let g (i : Nat) : Word := v.getD i 0
  let a := g 0
  let e := g 4
  let s1 := e.rotateRight 6 ^^^ e.rotateRight 11 ^^^ e.rotateRight 25
  let ch := (e &&& g 5) ^^^ (~~~e &&& g 6)
  let t1 := g 7 + s1 + ch + kw
  let s0 := a.rotateRight 2 ^^^ a.rotateRight 13 ^^^ a.rotateRight 22
  let maj := (a &&& g 1) ^^^ (a &&& g 2) ^^^ (g 1 &&& g 2)
  [t1 + s0 + maj, a, g 1, g 2, g 3 + t1, e, g 5, g 6]
/-- One block of 16 words. -/
def shaBlock (h w : List Word) : List Word :=
  let ws := (shaExpand 48 w.reverse).reverse
  let v := (shaK.zipWith (· + ·) ws).foldl shaRound h
  h.zipWith (· + ·) v
/-- Words of a big-endian list of bytes. -/
def shaWords : List Byte → List Word
  | a :: b :: c :: d :: r => (a ++ b ++ c ++ d : Word) :: shaWords r
  | _ => []
def shaRun : Nat → List Word → List Word → List Word
  | 0, h, _ => h
  | n + 1, h, w => shaRun n (shaBlock h (w.take 16)) (w.drop 16)
/-- The digest of a message, as a big-endian number. -/
def sha256 (m : List Byte) : BitVec 256 :=
  let n := m.length
  let pad := (119 - n % 64) % 64
  let len := (List.range 8).map fun i => (BitVec.ofNat 8 (8 * n / 256 ^ (7 - i)) : Byte)
  let w := shaWords (m ++ (0x80 : Byte) :: List.replicate pad 0 ++ len)
  BitVec.ofNat 256 ((shaRun (w.length / 16) shaStart w).foldl (fun a x => a * 2 ^ 32 + x.toNat) 0)
/-- The bytes of a big-endian number of n bytes. -/
def beBytes (n v : Nat) : List Byte := (List.range n).map fun i => BitVec.ofNat 8 (v / 256 ^ (n - 1 - i))
/-- The same 32 bytes in memory order, byte k at bits 8k, and back. -/
def flip256 (x : BitVec 256) : BitVec 256 := BitVec.ofNat 256 (packBits 8 ((beBytes 32 x.toNat).map BitVec.toNat))

/-! ### P-256 -/

def p256p : Nat := 0xffffffff00000001000000000000000000000000ffffffffffffffffffffffff
def p256n : Nat := 0xffffffff00000000ffffffffffffffffbce6faada7179e84f3b9cac2fc632551
def p256b : Nat := 0x5ac635d8aa3a93e7b3ebbd55769886bc651d06b0cc53b0f63bce3c3e27d2604b
def p256g : Nat × Nat :=
  (0x6b17d1f2e12c4247f8bce6e563a440f277037d812deb33a0f4a13945d898c296,
   0x4fe342e2fe1a7f9b8ee7eb4a7c0f9e162bce33576b315ececbb6406837bf51f5)
/-- b^e mod m; the first argument bounds the bits of e. -/
def powMod : Nat → Nat → Nat → Nat → Nat
  | 0, _, _, m => 1 % m
  | k + 1, b, e, m =>
    let r := powMod k (b * b % m) (e / 2) m
    if e % 2 == 1 then r * b % m else r
/-- The inverse modulo a prime. -/
def invMod (x m : Nat) : Nat := powMod 256 (x % m) (m - 2) m
/-- The sum of two points; none is the point at infinity. -/
def p256Add (a b : Option (Nat × Nat)) : Option (Nat × Nat) :=
  let p := p256p
  match a, b with
  | none, y => y
  | x, none => x
  | some (x1, y1), some (x2, y2) =>
    if x1 == x2 && (y1 + y2) % p == 0 then none
    else
      let l := if x1 == x2 then (3 * x1 * x1 + (p - 3)) * invMod (2 * y1) p % p else (y2 + p - y1) * invMod (x2 + p - x1) p % p
      let x3 := (l * l + 2 * p - x1 - x2) % p
      some (x3, (l * (x1 + p - x3) + p - y1) % p)
/-- k times a point; the first argument bounds the bits of k. -/
def p256Mul : Nat → Nat → Option (Nat × Nat) → Option (Nat × Nat)
  | 0, _, _ => none
  | n + 1, k, a =>
    let r := p256Mul n (k / 2) (p256Add a a)
    if k % 2 == 1 then p256Add r a else r
/-- A signature (r, s) of a digest verifies under a public key. -/
def p256Verify (qx qy r s : Nat) (digest : BitVec 256) : Bool :=
  let n := p256n
  let p := p256p
  let onCurve := qx < p && qy < p && qy * qy % p == (qx * qx * qx + (p - 3) * qx + p256b) % p
  onCurve && 1 ≤ r && r < n && 1 ≤ s && s < n &&
    (let w := invMod s n
     match p256Add (p256Mul 256 (digest.toNat * w % n) (some p256g)) (p256Mul 256 (r * w % n) (some (qx, qy))) with
     | some (x, _) => x % n == r
     | none => false)

end Sys2Proof.Machine
end

