-- ==== Sys2Proof/Machine/Regs.lean ====
section
/-! DEFINITION. Stores to package register space (17 R365 to R369), the ports (06 R166, 13 R313), management invalidations
(17 R366), measurements and attestation (17 R371, R372), reset and boot (17 R370). -/
namespace Sys2Proof.Machine

/-! ### Stores (17 R365; 00 R6 and R7 for reserved and read-only fields) -/

/-- A store to the exception counters of a loaded context (08 R210). DESIGN CHOICE: a store that puts COUNT at or above THR, or THR
at or below COUNT, sets no CROSS bit; only an event does (log 87). -/
def ctxRegWrite (s : State) (slot o : Nat) (w : Dword) : State :=
  if (s.ctx slot).status != .loaded then s
  else s.modCtx slot fun c =>
    if 0x100 ≤ o && o < 0x1C0 then { c with fx := { c.fx with cnt := setAt c.fx.cnt ((o - 0x100) / 8) (w.truncate 32) } }
    else match o with
      | 0x1C0 => { c with fx := { c.fx with ctl := w &&& 0x80000000FFFFFFFF } }
      | 0x1C8 => { c with fx := { c.fx with stat := c.fx.stat &&& ~~~w } }
      | _ => c
/-- RASCNT: a one written to a field's lowest bit clears the field (16 R358). -/
def rasClear (c w : Dword) : Dword :=
  let f (c : Dword) (lo len : Nat) : Dword := if bit w lo then putBits c lo len 0 else c
  f (f (f (f c 40 24) 24 16) 8 16) 0 8
/-- A store of an aligned 8 bytes that is no command. -/
def regWrite (s : State) (off : Nat) (w : Dword) : State :=
  if off < 0x40000 then ctxRegWrite s (off / 0x1000) (off % 0x1000) w
  else if 0x104000 ≤ off && off < 0x106000 then
    -- CELL and PRES are writable (05 R123)
    { s with celltab := modAt s.celltab ((off - 0x104000) / 8) fun o => (o &&& 6) ||| (w &&& 0xFF01) }
  else if 0x101000 ≤ off && off < 0x1011E0 then { s with ppmask := setAt s.ppmask ((off - 0x101000) / 8) w }
  else match off with
    | 0x100000 => { s with spancfg := w &&& 0xFFFFFFFFFFE003FF }
    | 0x100008 =>
      if bit s.evcmd 62 then s
      else { s with evcmd := (w &&& 0x300000000000FFFF) ||| (s.evcmd &&& ~~~w &&& 0x10000) }
    | 0x100010 => if bit s.ctxcmd 62 then s else
        { s with ctxcmd := putBits (w &&& 0x300FFFFFFFFFF0FF) 8 2 (bits s.ctxcmd 8 2 &&& (3 - bits w 8 2)) }
    | 0x100020 => if bit s.pgcmd 61 then s else { s with pgcmd := (w &&& 0x000FFFFFFFFF0F00) ||| (s.pgcmd &&& ~~~w &&& 1) }
    | 0x100028 => { s with migctl := w &&& 0x000000FF0FFF0001 }
    | 0x100038 => { s with tlbiva := w }
    | 0x100040 => { s with rascnt := rasClear s.rascnt w }
    | 0x100048 => if bit w 62 then { s with rasovf := false } else s
    | 0x100090 => { s with pwrctl := putBits s.pwrctl 32 16 (bits w 32 16) }
    | 0x100098 => { s with evstat := s.evstat &&& ~~~w }
    | 0x1000A0 => { s with evdest := w &&& 0x000003FF000007FF }
    | 0x100100 => { s with migbpt := w &&& 0x000FFFFFFFFF0000 }
    | 0x100108 => { s with migfree := w &&& 0x000FFFFFFFFFF01F }
    | 0x100110 => { s with migfht := w }
    | 0x100118 => { s with migrel := w &&& 0x000FFFFFFFFFF01F }
    | 0x100120 => { s with migrht := w }
    | 0x100300 => if bit s.attcmd 62 then s else { s with attcmd := w &&& 0xFFFFFFFF }
    | 0x100308 => { s with attbuf := w &&& 0x000FFFFFFFFFFFC0 }
    | _ => s

/-! ### Management invalidations (17 R366) -/

def tlbicmdWrite (s : State) (w : Dword) : State :=
  let kind := bits w 0 2
  if kind == 3 || (kind == 0 && bits s.tlbiva 57 7 != 0) then s
  else
    let k : InvKind := match kind with
      | 0 => .page s.tlbiva.toNat
      | 1 => .context
      | _ => .all
    let (id, s) := sendInval s s.self (bits w 16 16) k
    { s with tlbiOpen := s.tlbiOpen ++ [id] }
def tlbicmdRead (s : State) (reader : Nat) : State :=
  if s.tlbiOpen.isEmpty then s.say (.registerAnswer reader 1) else { s with tlbiRead := s.tlbiRead ++ [reader] }

/-! ### The interrupt port (13 R313) -/

def uiportStore (s : State) (slot ep size : Nat) (w : Dword) : State :=
  if (s.ctx slot).status == .unknown && !ctxBusy s slot then s
  else
    uiPresent s slot ⟨if isHost s ep then 0 else 1, ep, bits w 0 6, BitVec.ofNat 32 (bits w 32 32), true,
      if size != 8 || bits w 6 26 != 0 then .bad else .port⟩

/-! ### Measurements and attestation (17 R371, R372) -/

/-- MEASk becomes SHA-256(old ‖ d); both in memory order. -/
def measExtend (s : State) (k : Nat) (d : BitVec 256) : State :=
  let ext (old : BitVec 256) : BitVec 256 :=
    flip256 (sha256 (beBytes 32 (flip256 old).toNat ++ beBytes 32 (flip256 d).toNat))
  { s with meas := modAt s.meas k ext }
/-- The bytes of a report as a little-endian number: measurements, identity, signature. -/
def attReport (s : State) : Nat :=
  let me := s.self
  let head := packBits 256 (s.meas.map BitVec.toNat)
    + (bits s.attcmd 0 32 + me * 2 ^ 32 + cellOf s me * 2 ^ 42 + spanId s * 2 ^ 50) * 2 ^ 2048
  let bytes := (List.range 264).map fun i => (BitVec.ofNat 8 (head / 256 ^ i) : Byte)
  let sg := Config.attSign (sha256 bytes)
  let r : BitVec 256 := BitVec.ofNat 256 (sg.toNat / 2 ^ 256)
  let q : BitVec 256 := BitVec.ofNat 256 sg.toNat
  head + (flip256 r).toNat * 2 ^ 2112 + (flip256 q).toNat * 2 ^ 2368
/-- Write the report from byte i on, by pieces of 8 bytes; none while a write waits. -/
def attWrite (v base : Nat) : Nat → Nat → State → Option State × State
  | 0, _, s => (some s, s)
  | n + 1, i, s => match physWrite s 0 (base + 8 * i) 8 (v / 2 ^ (64 * i) % 2 ^ 64) false false none with
    | (.done _, s) => attWrite v base n (i + 1) { s with attcmd := putBits s.attcmd 32 6 (i + 1) }
    | (.lost, s) => attWrite v base n (i + 1) { s with attcmd := putBits s.attcmd 32 6 (i + 1) }
    | (_, s) => (none, s)
/-- ATTESTATION REPORT DONE: 41 words, the count of those written in ATTCMD's unused bits meanwhile. The report and its place stay
as they were when its writing began. -/
def attDone (s : State) : State :=
  if !bit s.attcmd 62 then s
  else
    let i := bits s.attcmd 32 6
    let r := s.attrep.getD (attReport s, bits s.attbuf 6 46 * 64)
    match attWrite r.1 r.2 (41 - i) i { s with attrep := some r } with
    | (some s, _) => { s with attcmd := s.attcmd &&& 0xFFFFFFFF, attrep := none }
    | (none, s) => s.post (s.now + Config.pollTicks) .attestationReportDone

/-! ### Reset (17 R370) -/

/-- Whether the boot ROM accepts an image. -/
def bootAccepts (im : BootImage) : Bool :=
  sha256 (beBytes 32 im.keyX.toNat ++ beBytes 32 im.keyY.toNat) == Config.keyHash
    && p256Verify im.keyX.toNat im.keyY.toNat im.sigR.toNat im.sigS.toNat (sha256 im.body)
/-- RESET: everything at its reset value but what lies outside the package (time, its place in the span as the fabric shows
it, its links); then the boot ROM. -/
def resetWith (s : State) (im : BootImage) : State :=
  let r : State := { State.reset with
    now := s.now, celltab := s.celltab.map fun w => w &&& 6, links := s.links, routes := s.routes, ecc := s.ecc, eccFix := s.eccFix
    outbox := s.outbox, seq := s.seq, free := s.free }
  if !bootAccepts im then { r with recovery := true, mem := s.mem, meta_ := s.meta_ }
  else
    let r := measExtend { r with booted := true } 0 (flip256 (sha256 im.body))
    let win := 2 ^ 20
    ((r.post r.now .heartbeatSend).post (r.now + 100000) .powerAdjust).post ((r.now / win + 1) * win) .migWindowBoundary

/-! ### The events -/

/-- 17 R365: a store of another size, or unaligned, is discarded. -/
def execRegisterWrite (off size : Nat) (w : Dword) (s : State) : Host.Outcome State Fault Refusal :=
  regAccess s fun s => if size == 8 && off % 8 == 0 then regWrite s off w else s
/-- 17 R366. -/
def execTlbicmdWrite (w : Dword) (s : State) : Host.Outcome State Fault Refusal := regAccess s fun s => tlbicmdWrite s w
/-- 17 R366. -/
def execTlbicmdRead (reader : Nat) (s : State) : Host.Outcome State Fault Refusal := regAccess s fun s => tlbicmdRead s reader
/-- 06 R166. -/
def execLportLaunch (slot ep : Nat) (w : Dword) (s : State) : Host.Outcome State Fault Refusal :=
  event s fun s => portStore s slot ep w
/-- 06 R166, 17 R373. -/
def execLportGraph (slot ep : Nat) (w : Dword) (s : State) : Host.Outcome State Fault Refusal :=
  event s fun s => portStore s slot ep w
/-- 13 R313. -/
def execUiportStore (slot ep size : Nat) (w : Dword) (s : State) : Host.Outcome State Fault Refusal :=
  event s fun s => uiportStore s slot ep size w
/-- 17 R371. -/
def execMeasExtend (k : Nat) (d : BitVec 256) (s : State) : Host.Outcome State Fault Refusal := event s fun s => measExtend s k d
/-- 17 R372: a GO while BUSY is ignored. -/
def execAttcmdGo (w : Dword) (s : State) : Host.Outcome State Fault Refusal :=
  regAccess s fun s =>
    if bit s.attcmd 62 then s
    else State.post { s with attcmd := (w &&& 0xFFFFFFFF) ||| 0x4000000000000000 } (s.now + 1) .attestationReportDone
/-- 17 R372. -/
def execAttestationReportDone (s : State) : Host.Outcome State Fault Refusal := event s attDone
/-- 17 R370. -/
def execReset (image : BootImage) (s : State) : Host.Outcome State Fault Refusal := .next (resetWith s image)

end Sys2Proof.Machine
end

