-- ==== Sys2Proof/Machine/Smem.lean ====
section
/-! DEFINITION. Scalar loads, stores and atomics (09 R223 to R225, 11 R278). -/
namespace Sys2Proof.Machine

/-- The address of SMEM: S[a] + sext(imm10) × size (09 R223). -/
def smemAddr (a : Dword) (i : BitVec 10) (n : Nat) : Dword := a + sext64 10 i.toNat * BitVec.ofNat 64 n
/-- The checks of a scalar access at issue, then its log entry of one lane (09 R224). -/
def scalarIssue (s : State) (op : MemOp) (dst : Dst) (a : SVal) (addr : Dword) (n : Nat) (data : BitVec 128) (p : Bool) : Res :=
  if a.p then .trap s poisonTrap
  else if addr.toNat % n != 0 then .trap s ⟨MISALIGNED, 0, addr⟩
  else logIssue s op dst true 1 [addr] [data] (if p then 1 else 0) 0 [] 0 0
/-- The scalar register a load or an atomic writes, in the bank it names now (09 R214). -/
def scalDst (t : Thread) (d : SReg) : Dst := .scal d (t.mode == .sup && d.val < 16)
/-- A scalar load of n bytes. -/
def scalarLoad (s : State) (d a : SReg) (i : BitVec 10) (n : Nat) : Res :=
  let x := s.cur.getS a
  scalarIssue s (.load n .normal) (scalDst s.cur d) x (smemAddr x.v i n) n 0 false
/-- A scalar store of n bytes (09 R225). -/
def scalarStore (s : State) (d a : SReg) (i : BitVec 10) (n : Nat) : Res :=
  let x := s.cur.getS a
  scalarIssue s (.store n .normal) .none x (smemAddr x.v i n) n ((s.cur.getS d).v.zeroExtend 128) (s.cur.getS d).p
/-- A scalar atomic on the 8-byte word at S[a] (11 R278). -/
def scalarAtom (s : State) (op : AtomOp) (d a : SReg) (new : SVal) : Res :=
  let x := s.cur.getS a
  let v := s.cur.getS d
  scalarIssue s (.atom op 8) (scalDst s.cur d) x x.v 8 (new.v ++ v.v) (v.p || new.p)

/-- 09 R223. -/
def execSldb (d : SReg) (a : SReg) (i : BitVec 10) (s : State) : Host.Outcome State Fault Refusal :=
  issue anyMode [wS d, rS a] s fun s =>
    scalarLoad s d a i 1

/-- 09 R223. -/
def execSldh (d : SReg) (a : SReg) (i : BitVec 10) (s : State) : Host.Outcome State Fault Refusal :=
  issue anyMode [wS d, rS a] s fun s =>
    scalarLoad s d a i 2

/-- 09 R223. -/
def execSldw (d : SReg) (a : SReg) (i : BitVec 10) (s : State) : Host.Outcome State Fault Refusal :=
  issue anyMode [wS d, rS a] s fun s =>
    scalarLoad s d a i 4

/-- 09 R223. -/
def execSldd (d : SReg) (a : SReg) (i : BitVec 10) (s : State) : Host.Outcome State Fault Refusal :=
  issue anyMode [wS d, rS a] s fun s =>
    scalarLoad s d a i 8

/-- 09 R223. -/
def execSstb (d : SReg) (a : SReg) (i : BitVec 10) (s : State) : Host.Outcome State Fault Refusal :=
  issue anyMode [rS d, rS a] s fun s =>
    scalarStore s d a i 1

/-- 09 R223. -/
def execSsth (d : SReg) (a : SReg) (i : BitVec 10) (s : State) : Host.Outcome State Fault Refusal :=
  issue anyMode [rS d, rS a] s fun s =>
    scalarStore s d a i 2

/-- 09 R223. -/
def execSstw (d : SReg) (a : SReg) (i : BitVec 10) (s : State) : Host.Outcome State Fault Refusal :=
  issue anyMode [rS d, rS a] s fun s =>
    scalarStore s d a i 4

/-- 09 R223. -/
def execSstd (d : SReg) (a : SReg) (i : BitVec 10) (s : State) : Host.Outcome State Fault Refusal :=
  issue anyMode [rS d, rS a] s fun s =>
    scalarStore s d a i 8

/-- 11 R278. -/
def execSatomAdd (d : SReg) (a : SReg) (s : State) : Host.Outcome State Fault Refusal :=
  issue anyMode [mS d, rS a] s fun s =>
    scalarAtom s .add d a SVal.zero

/-- 11 R278. -/
def execSatomSwap (d : SReg) (a : SReg) (s : State) : Host.Outcome State Fault Refusal :=
  issue anyMode [mS d, rS a] s fun s =>
    scalarAtom s .swap d a SVal.zero

/-- 11 R278. -/
def execSatomMin (d : SReg) (a : SReg) (s : State) : Host.Outcome State Fault Refusal :=
  issue anyMode [mS d, rS a] s fun s =>
    scalarAtom s .min d a SVal.zero

/-- 11 R278. -/
def execSatomMax (d : SReg) (a : SReg) (s : State) : Host.Outcome State Fault Refusal :=
  issue anyMode [mS d, rS a] s fun s =>
    scalarAtom s .max d a SVal.zero

/-- 11 R278. -/
def execSatomOr (d : SReg) (a : SReg) (s : State) : Host.Outcome State Fault Refusal :=
  issue anyMode [mS d, rS a] s fun s =>
    scalarAtom s .or d a SVal.zero

/-- 11 R278. -/
def execSatomAnd (d : SReg) (a : SReg) (s : State) : Host.Outcome State Fault Refusal :=
  issue anyMode [mS d, rS a] s fun s =>
    scalarAtom s .and d a SVal.zero

/-- 11 R278. -/
def execSatomCas (d : SReg) (a : SReg) (b : SReg) (s : State) : Host.Outcome State Fault Refusal :=
  issue anyMode [mS d, rS a, rS b] s fun s =>
    scalarAtom s .cas d a (s.cur.getS b)

end Sys2Proof.Machine
end

