-- ==== Sys2Proof/Machine/Spm.lean ====
section
/-! DEFINITION. Scratchpad instructions (11 R265, R276, R277). -/
namespace Sys2Proof.Machine

/-- The scratch address of a lane (11 R265). -/
def scratchLaneAddr (t : Thread) (a : SReg) (b : XOpnd) (L : Nat) : SVal :=
  ⟨(t.getS a).v + sext64 32 (t.getX b L).v.toNat, (t.getX b L).p⟩
/-- Steps 1 to 3 of 11 R266: `refuse` is the poison check of 11 R277 on a lane's operand. -/
def scratchIssue (s : State) (op : MemOp) (dst : Dst) (a : SReg) (b : XOpnd) (n : Nat) (d : VReg) (regs : Nat)
    (refuse : Nat × Bool → Bool) : Res :=
  let t := s.cur
  let ls := lanesOf t.mask
  if (t.getS a).p || ls.any (fun L => (scratchLaneAddr t a b L).p) then .trap s poisonTrap
  else match ls.find? fun L => (scratchLaneAddr t a b L).v.toNat % n != 0 with
    | some L => .trap s ⟨MISALIGNED, 0, (scratchLaneAddr t a b L).v⟩
    | none =>
      if ls.any fun L => refuse (laneData t d regs L) then .trap s poisonTrap
      else
        let all := List.range 96
        let on (L : Nat) : Bool := t.mask.getLsbD L
        logIssue s op dst false t.mask (all.map fun L => if on L then (scratchLaneAddr t a b L).v else 0)
          (all.map fun L => if on L then BitVec.ofNat 128 (laneData t d regs L).1 else 0)
          (lanesWhere fun L => on L && (laneData t d regs L).2) 0 [] 0 0
def scratchLoad (s : State) (d : VReg) (a : SReg) (b : XOpnd) (n : Nat) : Res :=
  scratchIssue s (.spLoad n) (vecDst s.cur d (regsOf n)) a b n d 0 fun _ => false
def scratchStore (s : State) (d : VReg) (a : SReg) (b : XOpnd) (n : Nat) : Res :=
  scratchIssue s (.spStore n) .none a b n d (regsOf n) fun x => x.2 && !carriesPoison n x.1
def scratchAtom (s : State) (op : AtomOp) (d : VReg) (a : SReg) (b : XOpnd) (regs : Nat) : Res :=
  scratchIssue s (.spAtom op) (vecDst s.cur d 1) a b 4 d regs fun x => x.2 && !atomIsFp op

/-- 11 R276. -/
def execSpldb (d : VReg) (a : SReg) (b : XOpnd) (s : State) : Host.Outcome State Fault Refusal :=
  issue userOnly [wV d 1, rS a, rX b] s fun s =>
    scratchLoad s d a b 1

/-- 11 R276. -/
def execSpldh (d : VReg) (a : SReg) (b : XOpnd) (s : State) : Host.Outcome State Fault Refusal :=
  issue userOnly [wV d 1, rS a, rX b] s fun s =>
    scratchLoad s d a b 2

/-- 11 R276. -/
def execSpldw (d : VReg) (a : SReg) (b : XOpnd) (s : State) : Host.Outcome State Fault Refusal :=
  issue userOnly [wV d 1, rS a, rX b] s fun s =>
    scratchLoad s d a b 4

/-- 11 R276. -/
def execSpldd (d : VReg) (a : SReg) (b : XOpnd) (s : State) : Host.Outcome State Fault Refusal :=
  issue userOnly [wV d 2, rS a, rX b] s fun s =>
    scratchLoad s d a b 8

/-- 11 R276. -/
def execSpldq (d : VReg) (a : SReg) (b : XOpnd) (s : State) : Host.Outcome State Fault Refusal :=
  issue userOnly [wV d 4, rS a, rX b] s fun s =>
    scratchLoad s d a b 16

/-- 11 R276. -/
def execSpstb (d : VReg) (a : SReg) (b : XOpnd) (s : State) : Host.Outcome State Fault Refusal :=
  issue userOnly [rV d 1, rS a, rX b] s fun s =>
    scratchStore s d a b 1

/-- 11 R276. -/
def execSpsth (d : VReg) (a : SReg) (b : XOpnd) (s : State) : Host.Outcome State Fault Refusal :=
  issue userOnly [rV d 1, rS a, rX b] s fun s =>
    scratchStore s d a b 2

/-- 11 R276. -/
def execSpstw (d : VReg) (a : SReg) (b : XOpnd) (s : State) : Host.Outcome State Fault Refusal :=
  issue userOnly [rV d 1, rS a, rX b] s fun s =>
    scratchStore s d a b 4

/-- 11 R276. -/
def execSpstd (d : VReg) (a : SReg) (b : XOpnd) (s : State) : Host.Outcome State Fault Refusal :=
  issue userOnly [rV d 2, rS a, rX b] s fun s =>
    scratchStore s d a b 8

/-- 11 R276. -/
def execSpstq (d : VReg) (a : SReg) (b : XOpnd) (s : State) : Host.Outcome State Fault Refusal :=
  issue userOnly [rV d 4, rS a, rX b] s fun s =>
    scratchStore s d a b 16

/-- 11 R276. -/
def execSpatomAdd (d : VReg) (a : SReg) (b : XOpnd) (s : State) : Host.Outcome State Fault Refusal :=
  issue userOnly [mV d 1, rS a, rX b] s fun s =>
    scratchAtom s .add d a b 1

/-- 11 R276. -/
def execSpatomMin (d : VReg) (a : SReg) (b : XOpnd) (s : State) : Host.Outcome State Fault Refusal :=
  issue userOnly [mV d 1, rS a, rX b] s fun s =>
    scratchAtom s .min d a b 1

/-- 11 R276. -/
def execSpatomMax (d : VReg) (a : SReg) (b : XOpnd) (s : State) : Host.Outcome State Fault Refusal :=
  issue userOnly [mV d 1, rS a, rX b] s fun s =>
    scratchAtom s .max d a b 1

/-- 11 R276. -/
def execSpatomSwap (d : VReg) (a : SReg) (b : XOpnd) (s : State) : Host.Outcome State Fault Refusal :=
  issue userOnly [mV d 1, rS a, rX b] s fun s =>
    scratchAtom s .swap d a b 1

/-- 11 R276. -/
def execSpatomCas (d : VReg) (a : SReg) (b : XOpnd) (s : State) : Host.Outcome State Fault Refusal :=
  issue userOnly [mV d 2, rS a, rX b] s fun s =>
    scratchAtom s .cas d a b 2

/-- 11 R276. -/
def execSpatomFadd (d : VReg) (a : SReg) (b : XOpnd) (s : State) : Host.Outcome State Fault Refusal :=
  issue userOnly [mV d 1, rS a, rX b] s fun s =>
    scratchAtom s .fadd d a b 1

end Sys2Proof.Machine
end

