-- ==== Sys2Proof/Machine/Turn.lean ====
section
/-! DEFINITION. What happens to a waiting or a faulted thread (09 R233, R235, 12 R291, 11 R279, 13 R316, 15 R337, R338), and the
remaining events of a core: walks, answers, watermarks of other members, timeouts, copies, launches. -/
namespace Sys2Proof.Machine

/-! ### Waiting threads -/

/-- The wait of an instruction that has taken effect: BARA after its arrival, UISENDW after its send (14 R329). No trap is
taken until it ends, or the instruction would be issued twice. -/
def Wait.issued : Wait → Bool
  | .bara .. | .sendw _ => true
  | _ => false
/-- The wait of an instruction that has had no effect yet, and is issued when it would not wait (14 R329). -/
def Wait.before : Wait → Bool
  | .watermark .. | .engine _ | .seqgo _ | .launch | .streamTable _ => true
  | _ => false
/-- Whether the oldest fault can be taken: every lane of its entry is performed or has faulted (15 R338). -/
def trapDue (t : Thread) : Bool :=
  !t.wait.issued && match t.liveLog with
  | [] => false
  | e :: _ => e.trapReady
/-- The oldest fault of the thread that is checked out is taken (15 R338). -/
def trapOldest (s : State) : State :=
  match s.cur.liveLog with
  | [] => s
  | e :: _ => match e.faults with
    | [] => s
    | f :: _ => if trapDue s.cur then takeTrap (s.modCur fun t => { t with stall := false }) f.2 e.pc e.insn (some e) else s

/-- A WAIT with a kind-4 condition that is satisfied: it ends before the handler is entered (09 R235). -/
def endsFirst (s : State) (t : Thread) : Bool :=
  match t.wait with
  | .wait pairs _ _ _ => pairs.any fun p => bits p.1 60 4 == 4 &&
      (s.ctxOf t).ui.pend &&& (s.ctxOf t).ui.mask &&& (if p.2 == 0 then BitVec.allOnes 64 else p.2) != 0
  | _ => false
/-- The handler is to be entered now (13 R316, R317). -/
def handlerDue (s : State) (t : Thread) : Bool := deliverable s t && mayEnter t && !endsFirst s t
/-- A UISENDW has its answer, and the fault of an access before it is due: it is taken first, and the UISENDW, which found itself
refused or without an answer, is issued again after it (13 R320, 15 R338). -/
def faultFirst (s : State) (id : Nat) : Bool :=
  (s.reqs.any fun r => r.id == id && r.ended) && trapDue { s.cur with wait := .none }
/-- A wait is looked at again by the thread that is checked out: it ends, goes on, or the instruction is issued again
(14 R329). -/
def resume (s : State) : State :=
  let again (s : State) : State := s.modCur fun t => { t with wait := .none, stall := false }
  -- a word that ends enters SIG: a thread that was restored fetches it again first (09 R242)
  let ended (k : State → Res) : State := match s.cur.fetched with
    | some f => conclude { s with iw := f.2 } (k { s with iw := f.2 })
    | none => s.modCur fun t => { t with stall := false }
  match s.cur.wait with
  | .none => s
  | .wait pairs all left last => ended fun s => waitAgain s pairs all left last false
  | .bara a g _ => ended fun s => baraWait s a g
  | .fence sc => ended fun s => fence sc s
  | .sendw id =>
    if faultFirst s id then trapOldest ((dropReq s id).modCur fun t => { t with wait := .none })
    else ended fun s => sendwWait s id
  | .replay => if s.cur.log.any LogEntry.held then s.modCur fun t => { t with stall := true } else again s
  | .yield | .watermark .. | .engine _ | .seqgo _ | .launch | .streamTable _ => again s
/-- The timeout of a WAIT passes in this tick (09 R233). -/
def waitPasses (now : Nat) (t : Thread) : Bool :=
  match t.wait with
  | .wait _ _ left last => left != 2 ^ 64 - 1 && left ≤ now - last && t.fetched.isSome && !t.ending
  | _ => false
/-- The tick is over, and with it the WAITs whose timeout passed in it: each looks once more (09 R233). -/
def waitsOver (s : State) : State :=
  (s.threads.filter (waitPasses s.now)).foldl (fun (s : State) t => s.asThread t.uid fun s =>
    match s.cur.wait, s.cur.fetched with
    | .wait pairs all left last, some f =>
      conclude { s with iw := f.2 } (waitAgain { s with iw := f.2 } pairs all left last true)
    | _, _ => s) s
/-- Resume a thread whose wait a test picks. -/
def resumeIf (s : State) (uid : Nat) (f : Wait → Bool) : State :=
  match s.thread? uid with
  | some t => if f t.wait then s.asThread uid resume else s
  | none => s

/-! ### Leaving the active set (14 R326) -/

/-- Global loads that miss and remote requests of a thread that are on their way (14 R326). -/
def misses (s : State) (uid core : Nat) : Nat :=
  ((s.core core).loads.filter fun l => l.uid == uid).length + (s.reqs.filter fun r => !r.ended && match r.for_ with
    | .put u .. | .send u .. => u == uid
    | .lanes u .. | .sendw u .. => u == uid
    | _ => false).length
/-- The oldest entry of the log, where it is held in the replay buffer (14 R326). -/
def oldestHeld (s : State) (t : Thread) : Option Nat :=
  match t.liveLog.find? fun e => e.unperformed != 0 with
  | none => none
  | some e => if e.held || e.moving != 0 || e.replayOnly s t then some e.id else none

/-- The group cannot go on because a watermark holds bytes of its log, or a put or a flag of it waits for its stream (14 R326). -/
def behindMark (s : State) (t : Thread) : Bool :=
  t.stall && t.liveLog.any fun e => ((e.op == .rput || e.op == .rputf) && e.unsent != 0 && postedWaits s (s.slotOf t) e)
    || (lanesOf e.unsent).any fun L => heldLane s t e L

/-- The wait of a group is a blocking point, not an interlock (11 R279, 14 R329). -/
def waitLeaves (s : State) (t : Thread) : Bool :=
  match t.wait with
  | .none => false
  | .fence sc => fenceBlocked s t sc
  | _ => true

/-- Whether the active thread that is checked out leaves the active set: it waits, a load of it has missed or it has made a remote
access since there were `missed`, its oldest entry is held and was not when it was last looked at, or it cannot go on for it, or it
waits behind a watermark (14 R326). -/
def leavesNow (missed : Nat) (s : State) : Bool :=
  let held := oldestHeld s s.cur
  s.cur.active && (waitLeaves s s.cur || missed < misses s s.cur.uid s.cur.core
    || (held.isSome && (s.cur.stall || held != s.cur.heldAt)) || behindMark s s.cur)
/-- The thread that is checked out has been looked at: it keeps its place in the active set, or leaves it (14 R326). -/
def looked (leaves : Bool) (s : State) : State :=
  let held := oldestHeld s s.cur
  s.modCur fun t => { t with
    active := t.active && !leaves, heldAt := held, readyAt := if leaves then s.now else t.readyAt }

/-! ### Walks -/

/-- PAGE WALK COMPLETE (01 R24, R34, R37): the translation is installed, in the second level, from which the TLB that missed
takes it; a fault goes to the accesses that wait for it, or to
the fetch. -/
def walkDone (s : State) (id : Nat) : State :=
  match s.walks.find? fun w => w.id == id with
  | none => s
  | some w =>
    let drop (s : State) : State := { s with walks := s.walks.filter fun x => x.id != id }
    let again (s : State) : State := s.post (s.now + Config.pollTicks) (.pageWalkComplete id)
    -- one that an invalidation has met ends with its read of the page table, and another begins (01 R37, R38)
    if w.restart then (if w.reads s then again s else beginWalk (drop s) w.core w.slot (w.va * 65536) w.dev none)
    else match walkNow s (dieOf w.core) w.slot (w.va * 65536) with
      | (.pending l, s) => again { s with walks := s.walks.map fun x => if x.id == id then { x with line := some l } else x }
      | (.ok e, s) => (if w.dev then drop s else (drop s).modCore w.core fun k => k.install2 e).wake
      | (.fault c d, s) => if w.dev then (drop s).wake else
        let walked : Walked := ⟨w.core, w.slot, w.va, c, d⟩
        let mine := s.threads.filter fun t => t.core == w.core && s.slotOf t == w.slot
        mine.foldl (fun (s : State) t => s.asThread t.uid fun s =>
          let missed := misses s s.cur.uid s.cur.core
          let s := pumpLog (some walked) s
          let s := looked (leavesNow missed s) s
          let t := s.cur
          let fetching := t.wait == .none && !trapDue t && t.pc.toNat / 65536 == w.va && (t.fetched.map Prod.fst) != some t.pc
          if fetching then raise s (accTrap .fetch t.pc c d) t.pc 0 else s) (drop s).wake

/-! ### Other members' scratchpads (01 R15) -/

/-- MEMBER SCRATCHPAD ACCESS: watermarks are those of the member; a lane that one holds goes back to its log, where it waits as
one behind the own team's does (04 R105). -/
def memberAccess (s : State) (id : Nat) : State :=
  match s.scratchMsgs.find? fun m => m.id == id with
  | none => s
  | some m =>
    let gone (s : State) : State := { s with scratchMsgs := s.scratchMsgs.filter fun x => x.id != id }
    match (s.anyThread? m.uid).bind fun t => t.log.find? fun e => e.id == m.entry with
    | none => gone s
    | some e =>
      let off := bits (e.addrs.getD m.lane 0) 0 19
      let exited := ((s.team? m.team).map Team.exited).getD true
      if exited then (scratchLane (gone s) m.uid e m.lane m.team off).wake
      else match heldBy (s.marksOf m.team) 1 0 off (memSize e.op) with
        | .wait => ((gone s).modThread m.uid fun t => t.modEntry e.id fun e => { e with flight := e.flight &&& ~~~laneBit m.lane }).wake
        | .aborted b => (gone s).modThread m.uid fun t => t.modEntry e.id fun e => e.laneFault m.lane ⟨COPY_ABORTED, 0, BitVec.ofNat 64 b⟩
        | .free => (scratchLane (gone s) m.uid e m.lane m.team off).wake

/-! ### The active set (14 R326, R328) -/

/-- Able to issue its next instruction: nothing stops it, and since something last did it has been looked at. -/
def Thread.ready (t : Thread) : Bool := t.wait == .none && !t.stall && !t.idle && !t.ending
/-- Whether a group is older than another: resident before it, or of a lower GROUPID (14 R326). -/
def Thread.older (t u : Thread) : Bool := t.resident < u.resident || (t.resident == u.resident && t.gid < u.gid)
/-- The oldest of some groups. -/
def oldest (ts : List Thread) : Option Thread :=
  ts.foldl (fun (m : Option Thread) t => match m with
    | none => some t
    | some u => if t.older u then some t else some u) none
/-- ACTIVE SET SWAP (14 R328): the oldest group that has been ready for 48 cycles takes the place of the one that entered
earliest. -/
def activeSwap (s : State) (core : Nat) : State :=
  let gs := s.threads.filter fun t => t.core == core && !t.stream
  let act := gs.filter fun t => t.active
  match oldest (gs.filter fun t => !t.active && t.ready && t.readyAt + 48 ≤ s.now) with
  | none => s
  | some n =>
    if act.length < 8 then s.modThread n.uid fun t => { t with active := true, activeAt := s.now }
    else match act.foldl (fun (m : Option Thread) t => match m with
        | none => some t
        | some x => if t.activeAt < x.activeAt then some t else some x) none with
      | none => s
      | some o => (s.modThread o.uid fun t => { t with active := false, idle := true }).modThread n.uid fun t =>
          { t with active := true, activeAt := s.now }

/-! ### The events -/

/-- 15 R337 to R342. -/
def execTrapEntry (uid : Nat) (s : State) : Host.Outcome State Fault Refusal := event s fun s => s.asThread uid trapOldest
/-- 13 R316 to R318. -/
def execUiHandlerEntry (uid : Nat) (s : State) : Host.Outcome State Fault Refusal :=
  event s fun s => s.asThread uid fun s => if handlerDue s s.cur then enterHandler s else s
/-- 09 R233 to R235. -/
def execWaitEvaluate (uid : Nat) (s : State) : Host.Outcome State Fault Refusal :=
  event s fun s => resumeIf s uid fun w => match w with
    | .wait .. => true
    | _ => false
/-- 09 R233: the remaining ticks have run out. -/
def execWaitTimeout (uid : Nat) (s : State) : Host.Outcome State Fault Refusal :=
  event s fun s => resumeIf s uid fun w => match w with
    | .wait .. => true
    | _ => false
/-- 12 R291. -/
def execBaraWaitEnd (uid : Nat) (s : State) : Host.Outcome State Fault Refusal :=
  event s fun s => resumeIf s uid fun w => match w with
    | .bara .. => true
    | _ => false
/-- 11 R279, R280. -/
def execFenceComplete (uid : Nat) (s : State) : Host.Outcome State Fault Refusal :=
  event s fun s => resumeIf s uid fun w => match w with
    | .fence _ => true
    | _ => false
/-- 06 R159: the group that has waited longest issues its SEQGO again. -/
def execSequencerGrant (core : Nat) (s : State) : Host.Outcome State Fault Refusal :=
  event s fun s => match (s.core core).seqwait with
    | uid :: _ => if (streamOn s core).isSome then s else resumeIf s uid fun w => match w with
      | .seqgo _ => true
      | _ => false
    | [] => s
/-- 09 R238. -/
def execPinExpiry (team : Nat) (s : State) : Host.Outcome State Fault Refusal :=
  event s fun s => match (s.team? team).bind Team.pinEnd with
    | some e => if e ≤ s.now then unpin s team else s
    | none => s
/-- 14 R328. -/
def execActiveSetSwap (core : Nat) (s : State) : Host.Outcome State Fault Refusal := event s fun s => activeSwap s core
/-- 02 R53, R59. -/
def execL2LoadAnswer (core line : Nat) (s : State) : Host.Outcome State Fault Refusal := event s fun s => loadAnswer s core line
/-- 01 R15, 04 R105. -/
def execMemberScratchpadAccess (id : Nat) (s : State) : Host.Outcome State Fault Refusal := event s fun s => memberAccess s id
/-- 02 R56. -/
def execStoreBufferTimeout (core id : Nat) (s : State) : Host.Outcome State Fault Refusal := event s fun s => sbTimeout s core id
/-- 02 R56, 03 R72. -/
def execStoreBufferAnswer (core id t : Nat) (s : State) : Host.Outcome State Fault Refusal := event s fun s => sbAnswer s core id t
/-- 02 R59, 03 R69. -/
def execL2WritePerform (id : Nat) (s : State) : Host.Outcome State Fault Refusal := event s fun s => l2WritePerform s id
/-- 01 R24 to R28, R34, R37. -/
def execPageWalkComplete (id : Nat) (s : State) : Host.Outcome State Fault Refusal := event s fun s => walkDone s id
/-- 05 R135, R150. -/
def execRequestTimeout (id : Nat) (s : State) : Host.Outcome State Fault Refusal := event s fun s => requestTimeout s id
/-- 12 R300, R301. -/
def execMatrixOpComplete (core : Nat) (s : State) : Host.Outcome State Fault Refusal := event s fun s => matrixComplete s core
/-- 04 R101 to R112. -/
def execCopyUnitLand (copy : Nat) (s : State) : Host.Outcome State Fault Refusal := event s fun s => copyUnitLand s copy
/-- 04 R104, R116. -/
def execCopyLineWritePerformed (copy unit : Nat) (s : State) : Host.Outcome State Fault Refusal :=
  event s fun s => copyLineWritten s copy unit
/-- 04 R109, 03 R87. -/
def execCopyLandingsComplete (copy : Nat) (s : State) : Host.Outcome State Fault Refusal := event s fun s => copyLandingsDone s copy
/-- 04 R109. -/
def execCopyStampPerformed (copy : Nat) (s : State) : Host.Outcome State Fault Refusal := event s fun s => copyStamped s copy
/-- 06 R164, R166, 17 R373. -/
def execLaunchAccept (slot : Nat) (s : State) : Host.Outcome State Fault Refusal := event s fun s => portAccept s slot
/-- 06 R162, R169. -/
def execAfterConditionRead (grid : Nat) (s : State) : Host.Outcome State Fault Refusal := event s fun s => afterRead s grid
/-- 06 R170. -/
def execGridComplete (grid : Nat) (s : State) : Host.Outcome State Fault Refusal := event s fun s => gridComplete s grid
/-- 06 R171, 17 R373. -/
def execGridCompletionActions (grid : Nat) (s : State) : Host.Outcome State Fault Refusal :=
  event s fun s => completionActions s grid

end Sys2Proof.Machine
end

