-- ==== Sys2Proof/Machine/Vcmp.lean ====
section
/-! DEFINITION. Compares, predicate logic, predicates and the mask (10 R259 to R261). -/
namespace Sys2Proof.Machine

/-- A compare: a poisoned input writes 0 with P = 1 (10 R259). -/
def predWrite (s : State) (d : PReg) (f : Thread → Nat → Bool × Bool) : Res := .ok { s with cur := s.cur.putP d (f s.cur) }
def icmp (s : State) (d : PReg) (a : VReg) (b : XOpnd) (f : Word → Word → Bool) : Res :=
  predWrite s d fun t L => (f (t.getV a L).v (t.getX b L).v, (t.getV a L).p || (t.getX b L).p)
def icmp64 (s : State) (d : PReg) (a : VReg) (b : XOpnd) (f : Dword → Dword → Bool) : Res :=
  predWrite s d fun t L => (f (t.getV2 a L).v (t.getX64 b L).v, (t.getV2 a L).p || (t.getX64 b L).p)
def fcmp (s : State) (d : PReg) (a : VReg) (b : XOpnd) (f : FVal → FVal → Bool) : Res :=
  predWrite s d fun t L => (f (a32 t a L).v (b32 t b L).v, (a32 t a L).p || (b32 t b L).p)
def dcmp (s : State) (d : PReg) (a : VReg) (b : XOpnd) (f : FVal → FVal → Bool) : Res :=
  predWrite s d fun t L => (f (a64 t a L).v (b64 t b L).v, (a64 t a L).p || (b64 t b L).p)
/-- A ≤ B, both numbers. -/
def FVal.le (x y : FVal) : Bool := x.lt y || x.eq y
def FVal.unordered (x y : FVal) : Bool := x.isNan || y.isNan
/-- Predicate logic (10 R260). -/
def plogic (s : State) (d a b : PReg) (f : Bool → Bool → Bool) : Res :=
  predWrite s d fun t L => (f (t.getPL a L).1 (t.getPL b L).1, (t.getPL a L).2 || (t.getPL b L).2)

/-- 10 R259. -/
def execVicmpEq (d : PReg) (a : VReg) (b : XOpnd) (s : State) : Host.Outcome State Fault Refusal :=
  issue userOnly [wP d, rV a 1, rX b] s fun s =>
    icmp s d a b (fun x y => x == y)

/-- 10 R259. -/
def execVicmpNe (d : PReg) (a : VReg) (b : XOpnd) (s : State) : Host.Outcome State Fault Refusal :=
  issue userOnly [wP d, rV a 1, rX b] s fun s =>
    icmp s d a b (fun x y => x != y)

/-- 10 R259. -/
def execVicmpLt (d : PReg) (a : VReg) (b : XOpnd) (s : State) : Host.Outcome State Fault Refusal :=
  issue userOnly [wP d, rV a 1, rX b] s fun s =>
    icmp s d a b BitVec.slt

/-- 10 R259. -/
def execVicmpLe (d : PReg) (a : VReg) (b : XOpnd) (s : State) : Host.Outcome State Fault Refusal :=
  issue userOnly [wP d, rV a 1, rX b] s fun s =>
    icmp s d a b BitVec.sle

/-- 10 R259. -/
def execVicmpLtu (d : PReg) (a : VReg) (b : XOpnd) (s : State) : Host.Outcome State Fault Refusal :=
  issue userOnly [wP d, rV a 1, rX b] s fun s =>
    icmp s d a b BitVec.ult

/-- 10 R259. -/
def execVicmpLeu (d : PReg) (a : VReg) (b : XOpnd) (s : State) : Host.Outcome State Fault Refusal :=
  issue userOnly [wP d, rV a 1, rX b] s fun s =>
    icmp s d a b BitVec.ule

/-- 10 R259. -/
def execVicmp64Eq (d : PReg) (a : VReg) (b : XOpnd) (s : State) : Host.Outcome State Fault Refusal :=
  issue userOnly [wP d, rV a 2, rX64 b] s fun s =>
    icmp64 s d a b (fun x y => x == y)

/-- 10 R259. -/
def execVicmp64Lt (d : PReg) (a : VReg) (b : XOpnd) (s : State) : Host.Outcome State Fault Refusal :=
  issue userOnly [wP d, rV a 2, rX64 b] s fun s =>
    icmp64 s d a b BitVec.slt

/-- 10 R259. -/
def execVicmp64Ltu (d : PReg) (a : VReg) (b : XOpnd) (s : State) : Host.Outcome State Fault Refusal :=
  issue userOnly [wP d, rV a 2, rX64 b] s fun s =>
    icmp64 s d a b BitVec.ult

/-- 10 R259. -/
def execVfcmpEq (d : PReg) (a : VReg) (b : XOpnd) (s : State) : Host.Outcome State Fault Refusal :=
  issue userOnly [wP d, rV a 1, rX b] s fun s =>
    fcmp s d a b FVal.eq

/-- 10 R259. -/
def execVfcmpNe (d : PReg) (a : VReg) (b : XOpnd) (s : State) : Host.Outcome State Fault Refusal :=
  issue userOnly [wP d, rV a 1, rX b] s fun s =>
    fcmp s d a b (fun x y => !x.eq y)

/-- 10 R259. -/
def execVfcmpLt (d : PReg) (a : VReg) (b : XOpnd) (s : State) : Host.Outcome State Fault Refusal :=
  issue userOnly [wP d, rV a 1, rX b] s fun s =>
    fcmp s d a b FVal.lt

/-- 10 R259. -/
def execVfcmpLe (d : PReg) (a : VReg) (b : XOpnd) (s : State) : Host.Outcome State Fault Refusal :=
  issue userOnly [wP d, rV a 1, rX b] s fun s =>
    fcmp s d a b FVal.le

/-- 10 R259. -/
def execVfcmpUn (d : PReg) (a : VReg) (b : XOpnd) (s : State) : Host.Outcome State Fault Refusal :=
  issue userOnly [wP d, rV a 1, rX b] s fun s =>
    fcmp s d a b FVal.unordered

/-- 10 R259. -/
def execVdcmpEq (d : PReg) (a : VReg) (b : XOpnd) (s : State) : Host.Outcome State Fault Refusal :=
  issue userOnly [wP d, rV a 2, rX64 b] s fun s =>
    dcmp s d a b FVal.eq

/-- 10 R259. -/
def execVdcmpNe (d : PReg) (a : VReg) (b : XOpnd) (s : State) : Host.Outcome State Fault Refusal :=
  issue userOnly [wP d, rV a 2, rX64 b] s fun s =>
    dcmp s d a b (fun x y => !x.eq y)

/-- 10 R259. -/
def execVdcmpLt (d : PReg) (a : VReg) (b : XOpnd) (s : State) : Host.Outcome State Fault Refusal :=
  issue userOnly [wP d, rV a 2, rX64 b] s fun s =>
    dcmp s d a b FVal.lt

/-- 10 R259. -/
def execVdcmpLe (d : PReg) (a : VReg) (b : XOpnd) (s : State) : Host.Outcome State Fault Refusal :=
  issue userOnly [wP d, rV a 2, rX64 b] s fun s =>
    dcmp s d a b FVal.le

/-- 10 R259. -/
def execVdcmpUn (d : PReg) (a : VReg) (b : XOpnd) (s : State) : Host.Outcome State Fault Refusal :=
  issue userOnly [wP d, rV a 2, rX64 b] s fun s =>
    dcmp s d a b FVal.unordered

/-- 10 R260. -/
def execPand (d : PReg) (a : PReg) (b : PReg) (s : State) : Host.Outcome State Fault Refusal :=
  issue userOnly [wP d, rP a, rP b] s fun s =>
    plogic s d a b (fun x y => x && y)

/-- 10 R260. -/
def execPor (d : PReg) (a : PReg) (b : PReg) (s : State) : Host.Outcome State Fault Refusal :=
  issue userOnly [wP d, rP a, rP b] s fun s =>
    plogic s d a b (fun x y => x || y)

/-- 10 R260. -/
def execPxor (d : PReg) (a : PReg) (b : PReg) (s : State) : Host.Outcome State Fault Refusal :=
  issue userOnly [wP d, rP a, rP b] s fun s =>
    plogic s d a b (fun x y => x != y)

/-- 10 R260. -/
def execPandn (d : PReg) (a : PReg) (b : PReg) (s : State) : Host.Outcome State Fault Refusal :=
  issue userOnly [wP d, rP a, rP b] s fun s =>
    plogic s d a b (fun x y => x && !y)

/-- 10 R260. -/
def execPnot (d : PReg) (a : PReg) (s : State) : Host.Outcome State Fault Refusal :=
  issue userOnly [wP d, rP a] s fun s =>
    predWrite s d fun t L => (!(t.getPL a L).1, (t.getPL a L).2)

/-- 10 R260. -/
def execPset (d : PReg) (a : XOpnd) (s : State) : Host.Outcome State Fault Refusal :=
  issue userOnly [wP d, rX a] s fun s =>
    predWrite s d fun t L => ((t.getX a L).v != 0, (t.getX a L).p)

/-- 10 R260. -/
def execPsave (d : VReg) (a : PReg) (s : State) : Host.Outcome State Fault Refusal :=
  issue userOnly [wV d 1, rP a] s fun s =>
    .ok { s with cur := s.cur.putV d fun L => ⟨if (s.cur.getPL a L).1 then 1 else 0, (s.cur.getPL a L).2⟩ }

/-- 10 R260. -/
def execPrest (d : PReg) (a : VReg) (s : State) : Host.Outcome State Fault Refusal :=
  issue userOnly [wP d, rV a 1] s fun s =>
    predWrite s d fun t L => (bit (t.getV a L).v 0, (t.getV a L).p)

/-- BALLOT: the active lanes of a predicate as three words, each with the poison of its own
lanes; in a poisoned word the other bits stand (10 R261; log 38). -/
def ballot (t : Thread) (a : PReg) : List SVal :=
  let p := t.getP a
  let v := p.v &&& ~~~p.p &&& t.mask
  let q := p.p &&& t.mask
  [0, 1, 2].map fun k => ⟨(maskWord v k).zeroExtend 64, maskWord q k != 0⟩

/-- 10 R261. -/
def execBallot (d : SReg) (a : PReg) (s : State) : Host.Outcome State Fault Refusal :=
  issue userOnly [wSn d 3, rP a] s fun s =>
    match s.cur.putRun d.val (ballot s.cur a) with
    | some t => .ok { s with cur := t }
    | none => .trap s poisonTrap

/-- A mask write from a predicate; poison in a lane that is read faults first (10 R261). -/
def maskFrom (s : State) (read : LaneMask) (p : PredReg) (m : LaneMask) : Res :=
  if p.p &&& read != 0 then .trap s poisonTrap else .ok (s.modCur fun t => t.setMask m)

/-- 10 R261. -/
def execMandp (a : PReg) (s : State) : Host.Outcome State Fault Refusal :=
  issue userOnly [rP a] s fun s =>
    maskFrom s s.cur.mask (s.cur.getP a) (s.cur.mask &&& (s.cur.getP a).v)

/-- 10 R261. -/
def execMandnp (a : PReg) (s : State) : Host.Outcome State Fault Refusal :=
  issue userOnly [rP a] s fun s =>
    maskFrom s s.cur.mask (s.cur.getP a) (s.cur.mask &&& ~~~(s.cur.getP a).v)

/-- 10 R261. -/
def execMsetp (a : PReg) (s : State) : Host.Outcome State Fault Refusal :=
  issue userOnly [rP a] s fun s =>
    maskFrom s s.cur.live (s.cur.getP a) (s.cur.getP a).v

/-- 10 R261. -/
def execPcnt (d : SReg) (a : PReg) (s : State) : Host.Outcome State Fault Refusal :=
  issue userOnly [wS d, rP a] s fun s =>
    let p := s.cur.getP a
    putScalars s d.val [⟨BitVec.ofNat 64 (lanesOf (p.v &&& s.cur.mask)).length, p.p &&& s.cur.mask != 0⟩]

end Sys2Proof.Machine
end

