-- ==== Sys2Proof/Machine/Xlane.lean ====
section
/-! DEFINITION. Cross-lane instructions and selects (10 R262 to R264, 08 R213). -/
namespace Sys2Proof.Machine

/-- Lane L receives a from the lane that `from_ L n` names; a lane outside 0 to 95 gives its own; poisoned n gives 0 with
P = 1 (10 R262). -/
def permute (s : State) (d a : VReg) (n : Thread → Nat → Lane) (from_ : Nat → Nat → Int) : Res :=
  vecWrite s d fun t L =>
    let k := n t L
    if k.p then ⟨0, true⟩
    else
      let src := from_ L (bits k.v 0 7)
      if 0 ≤ src && src ≤ 95 then t.getV a src.toNat else t.getV a L

/-- 10 R262. -/
def execVperm (d : VReg) (a : VReg) (b : XOpnd) (s : State) : Host.Outcome State Fault Refusal :=
  issue userOnly [wV d 1, rV a 1, rX b] s fun s =>
    permute s d a (fun t L => t.getX b L) fun _ n => Int.ofNat n

/-- 10 R262. -/
def execVshflx (d : VReg) (a : VReg) (b : XOpnd) (s : State) : Host.Outcome State Fault Refusal :=
  issue userOnly [wV d 1, rV a 1, rX b] s fun s =>
    permute s d a (fun t L => t.getX b L) fun L n => Int.ofNat (L ^^^ n)

/-- 10 R262. -/
def execVshflu (d : VReg) (a : VReg) (b : XOpnd) (s : State) : Host.Outcome State Fault Refusal :=
  issue userOnly [wV d 1, rV a 1, rX b] s fun s =>
    permute s d a (fun t L => t.getX b L) fun L n => Int.ofNat L - Int.ofNat n

/-- 10 R262. -/
def execVshfld (d : VReg) (a : VReg) (b : XOpnd) (s : State) : Host.Outcome State Fault Refusal :=
  issue userOnly [wV d 1, rV a 1, rX b] s fun s =>
    permute s d a (fun t L => t.getX b L) fun L n => Int.ofNat (L + n)

/-- 10 R262. -/
def execVbcast (d : VReg) (a : VReg) (b : SReg) (s : State) : Host.Outcome State Fault Refusal :=
  issue userOnly [wV d 1, rV a 1, rS b] s fun s =>
    permute s d a (fun t _ => ⟨(t.getS b).v.truncate 32, (t.getS b).p⟩) fun _ n => Int.ofNat n

/-- A reduction over the active lanes, written to every active lane (10 R263). -/
def reduce (s : State) (d a : VReg) (f : Word → Word → Word) : Res :=
  vecWrite s d fun t =>
    let ls := lanesOf t.mask
    let p := ls.any fun L => (t.getV a L).p
    let v := match ls with
      | [] => 0
      | L :: r => r.foldl (fun acc K => f acc (t.getV a K).v) (t.getV a L).v
    fun _ => laneOf v p

/-- 10 R263. -/
def execVredAdd (d : VReg) (a : VReg) (s : State) : Host.Outcome State Fault Refusal :=
  issue userOnly [wV d 1, rV a 1] s fun s =>
    reduce s d a (fun x y => x + y)

/-- 10 R263. -/
def execVredMin (d : VReg) (a : VReg) (s : State) : Host.Outcome State Fault Refusal :=
  issue userOnly [wV d 1, rV a 1] s fun s =>
    reduce s d a (fun x y => if y.slt x then y else x)

/-- 10 R263. -/
def execVredMax (d : VReg) (a : VReg) (s : State) : Host.Outcome State Fault Refusal :=
  issue userOnly [wV d 1, rV a 1] s fun s =>
    reduce s d a (fun x y => if x.slt y then y else x)

/-- 10 R263. -/
def execVredAnd (d : VReg) (a : VReg) (s : State) : Host.Outcome State Fault Refusal :=
  issue userOnly [wV d 1, rV a 1] s fun s =>
    reduce s d a (fun x y => x &&& y)

/-- 10 R263. -/
def execVredOr (d : VReg) (a : VReg) (s : State) : Host.Outcome State Fault Refusal :=
  issue userOnly [wV d 1, rV a 1] s fun s =>
    reduce s d a (fun x y => x ||| y)

/-- 10 R263. -/
def execVredXor (d : VReg) (a : VReg) (s : State) : Host.Outcome State Fault Refusal :=
  issue userOnly [wV d 1, rV a 1] s fun s =>
    reduce s d a (fun x y => x ^^^ y)

/-- 08 R213: the tree of 08 R213 -/
def execVfredAdd (d : VReg) (a : VReg) (s : State) : Host.Outcome State Fault Refusal :=
  issue userOnly [wV d 1, rV a 1] s fun s =>
    let t := s.cur
    let (r, ev) := fredTree (fun L => if t.mask.getLsbD L then some (t.getV a L) else none)
    if t.mask == 0 then .ok s
    else .ok (countEvents { s with cur := t.putV d fun _ => r } 1 ev)

/-- 10 R263. -/
def execVscanAdd (d : VReg) (a : VReg) (s : State) : Host.Outcome State Fault Refusal :=
  issue userOnly [wV d 1, rV a 1] s fun s =>
    vecWrite s d fun t L =>
      let ls := (lanesOf t.mask).filter fun K => K ≤ L
      laneOf (ls.foldl (fun acc K => acc + (t.getV a K).v) 0) (ls.any fun K => (t.getV a K).p)

/-- 10 R263. -/
def execVlane (d : VReg) (s : State) : Host.Outcome State Fault Refusal :=
  issue userOnly [wV d 1] s fun s =>
    vecWrite s d fun t L => ⟨BitVec.ofNat 32 ((lanesOf t.mask).filter fun K => K < L).length, false⟩

/-- 10 R264: the operand not selected is not read -/
def execVsel (p : PReg) (d : VReg) (a : VReg) (b : XOpnd) (s : State) : Host.Outcome State Fault Refusal :=
  issue userOnly [rP p, wV d 1, rV a 1, rX b] s fun s =>
    vecWrite s d fun t L =>
      let p := t.getPL p L
      if p.2 then ⟨0, true⟩ else if p.1 then t.getV a L else t.getX b L

/-- 10 R264. -/
def execVpmov (p : PReg) (d : VReg) (b : XOpnd) (s : State) : Host.Outcome State Fault Refusal :=
  issue userOnly [rP p, wV d 1, rX b] s fun s =>
    vecWrite s d fun t L =>
      let p := t.getPL p L
      if p.2 then ⟨0, true⟩ else if p.1 then t.getX b L else t.getV d L

end Sys2Proof.Machine
end

