-- ==== Sys2Proof/Machine/Dispatch.lean ====
section
/-! DEFINITION. One arm for each constructor of Instr: each calls its own meaning. -/
namespace Sys2Proof.Machine

def exec (i : Instr) (s : State) : Host.Outcome State Fault Refusal :=
  match i with
  | .ctxcmdLoad w => Sys2Proof.Machine.execCtxcmdLoad w s
  | .ctxcmdPark w => Sys2Proof.Machine.execCtxcmdPark w s
  | .ctxcmdForget w => Sys2Proof.Machine.execCtxcmdForget w s
  | .evcmdEvict w => Sys2Proof.Machine.execEvcmdEvict w s
  | .evcmdEnd w => Sys2Proof.Machine.execEvcmdEnd w s
  | .fqcmdReplay w => Sys2Proof.Machine.execFqcmdReplay w s
  | .fqcmdDrop w => Sys2Proof.Machine.execFqcmdDrop w s
  | .pgcmdGo w => Sys2Proof.Machine.execPgcmdGo w s
  | .pgcmdSweep w => Sys2Proof.Machine.execPgcmdSweep w s
  | .tlbicmdWrite w => Sys2Proof.Machine.execTlbicmdWrite w s
  | .tlbicmdRead reader => Sys2Proof.Machine.execTlbicmdRead reader s
  | .cstateWriteAlive cell => Sys2Proof.Machine.execCstateWriteAlive cell s
  | .cstateWriteFree cell => Sys2Proof.Machine.execCstateWriteFree cell s
  | .cstateWriteDead cell => Sys2Proof.Machine.execCstateWriteDead cell s
  | .lportLaunch slot ep w => Sys2Proof.Machine.execLportLaunch slot ep w s
  | .lportGraph slot ep w => Sys2Proof.Machine.execLportGraph slot ep w s
  | .uiportStore slot ep size w => Sys2Proof.Machine.execUiportStore slot ep size w s
  | .measExtend k d => Sys2Proof.Machine.execMeasExtend k d s
  | .raspop => Sys2Proof.Machine.execRaspop s
  | .attcmdGo w => Sys2Proof.Machine.execAttcmdGo w s
  | .attestationReportDone => Sys2Proof.Machine.execAttestationReportDone s
  | .registerWrite off size w => Sys2Proof.Machine.execRegisterWrite off size w s
  | .rds r => Sys2Proof.Machine.execRds r s
  | .rdx r => Sys2Proof.Machine.execRdx r s
  | .upg r => Sys2Proof.Machine.execUpg r s
  | .wrf r => Sys2Proof.Machine.execWrf r s
  | .atf r => Sys2Proof.Machine.execAtf r s
  | .ntr r => Sys2Proof.Machine.execNtr r s
  | .prf r => Sys2Proof.Machine.execPrf r s
  | .wbk r => Sys2Proof.Machine.execWbk r s
  | .cancel ep id => Sys2Proof.Machine.execCancel ep id s
  | .recallInv r => Sys2Proof.Machine.execRecallInv r s
  | .recallDown r => Sys2Proof.Machine.execRecallDown r s
  | .recallCopy r => Sys2Proof.Machine.execRecallCopy r s
  | .recallDwb r => Sys2Proof.Machine.execRecallDwb r s
  | .recallAnswer a => Sys2Proof.Machine.execRecallAnswer a s
  | .homeAnswer a => Sys2Proof.Machine.execHomeAnswer a s
  | .retry id => Sys2Proof.Machine.execRetry id s
  | .retryResend id => Sys2Proof.Machine.execRetryResend id s
  | .retryMigrating id => Sys2Proof.Machine.execRetryMigrating id s
  | .migrationDone page => Sys2Proof.Machine.execMigrationDone page s
  | .rputDelivery m => Sys2Proof.Machine.execRputDelivery m s
  | .rputfDelivery m => Sys2Proof.Machine.execRputfDelivery m s
  | .rgetDelivery m => Sys2Proof.Machine.execRgetDelivery m s
  | .ratomDelivery m => Sys2Proof.Machine.execRatomDelivery m s
  | .epochClose src dst epoch id => Sys2Proof.Machine.execEpochClose src dst epoch id s
  | .epochCloseAck id => Sys2Proof.Machine.execEpochCloseAck id s
  | .remoteAck id ok => Sys2Proof.Machine.execRemoteAck id ok s
  | .remoteAnswer a => Sys2Proof.Machine.execRemoteAnswer a s
  | .uiArrival a => Sys2Proof.Machine.execUiArrival a s
  | .uiSendAnswer id recorded => Sys2Proof.Machine.execUiSendAnswer id recorded s
  | .uiHandlerEntry uid => Sys2Proof.Machine.execUiHandlerEntry uid s
  | .heartbeatSend => Sys2Proof.Machine.execHeartbeatSend s
  | .heartbeat ep => Sys2Proof.Machine.execHeartbeat ep s
  | .heartbeatTimeout cell => Sys2Proof.Machine.execHeartbeatTimeout cell s
  | .suspectReport ep cell suspect => Sys2Proof.Machine.execSuspectReport ep cell suspect s
  | .monitorDeclare cell => Sys2Proof.Machine.execMonitorDeclare cell s
  | .deathDeclaration cell inc => Sys2Proof.Machine.execDeathDeclaration cell inc s
  | .recoveryRegionScan cell => Sys2Proof.Machine.execRecoveryRegionScan cell s
  | .linkCrcError f => Sys2Proof.Machine.execLinkCrcError f s
  | .linkDown port => Sys2Proof.Machine.execLinkDown port s
  | .invalidation m => Sys2Proof.Machine.execInvalidation m s
  | .invalidationAck id => Sys2Proof.Machine.execInvalidationAck id s
  | .pageWalkComplete id => Sys2Proof.Machine.execPageWalkComplete id s
  | .requestTimeout id => Sys2Proof.Machine.execRequestTimeout id s
  | .storeBufferTimeout core id => Sys2Proof.Machine.execStoreBufferTimeout core id s
  | .storeBufferAnswer core id t => Sys2Proof.Machine.execStoreBufferAnswer core id t s
  | .l2WritePerform id => Sys2Proof.Machine.execL2WritePerform id s
  | .pinExpiry team => Sys2Proof.Machine.execPinExpiry team s
  | .waitEvaluate uid => Sys2Proof.Machine.execWaitEvaluate uid s
  | .waitTimeout uid => Sys2Proof.Machine.execWaitTimeout uid s
  | .baraWaitEnd uid => Sys2Proof.Machine.execBaraWaitEnd uid s
  | .fenceComplete uid => Sys2Proof.Machine.execFenceComplete uid s
  | .sequencerGrant core => Sys2Proof.Machine.execSequencerGrant core s
  | .launchAccept slot => Sys2Proof.Machine.execLaunchAccept slot s
  | .afterConditionRead grid => Sys2Proof.Machine.execAfterConditionRead grid s
  | .dispatchPlace => Sys2Proof.Machine.execDispatchPlace s
  | .dispatchRetry => Sys2Proof.Machine.execDispatchRetry s
  | .activeSetSwap core => Sys2Proof.Machine.execActiveSetSwap core s
  | .clusterEvict cluster => Sys2Proof.Machine.execClusterEvict cluster s
  | .evictRetry cluster => Sys2Proof.Machine.execEvictRetry cluster s
  | .wakeEvaluate cluster => Sys2Proof.Machine.execWakeEvaluate cluster s
  | .gridComplete grid => Sys2Proof.Machine.execGridComplete grid s
  | .gridCompletionActions grid => Sys2Proof.Machine.execGridCompletionActions grid s
  | .trapEntry uid => Sys2Proof.Machine.execTrapEntry uid s
  | .fqRetry slot => Sys2Proof.Machine.execFqRetry slot s
  | .copyUnitLand copy => Sys2Proof.Machine.execCopyUnitLand copy s
  | .copyLineWritePerformed copy unit => Sys2Proof.Machine.execCopyLineWritePerformed copy unit s
  | .copyLandingsComplete copy => Sys2Proof.Machine.execCopyLandingsComplete copy s
  | .copyStampPerformed copy => Sys2Proof.Machine.execCopyStampPerformed copy s
  | .matrixOpComplete core => Sys2Proof.Machine.execMatrixOpComplete core s
  | .migrationStart m => Sys2Proof.Machine.execMigrationStart m s
  | .migrationCopyPage m => Sys2Proof.Machine.execMigrationCopyPage m s
  | .migrationFinish m => Sys2Proof.Machine.execMigrationFinish m s
  | .migWindowBoundary => Sys2Proof.Machine.execMigWindowBoundary s
  | .eccRetry line => Sys2Proof.Machine.execEccRetry line s
  | .scrubPass region => Sys2Proof.Machine.execScrubPass region s
  | .powerAdjust => Sys2Proof.Machine.execPowerAdjust s
  | .hotLimit => Sys2Proof.Machine.execHotLimit s
  | .ageRecompute die slack eolh => Sys2Proof.Machine.execAgeRecompute die slack eolh s
  | .infieldTestDrain core => Sys2Proof.Machine.execInfieldTestDrain core s
  | .infieldTestStart core => Sys2Proof.Machine.execInfieldTestStart core s
  | .infieldTestEnd core => Sys2Proof.Machine.execInfieldTestEnd core s
  | .infieldTestTimeout core => Sys2Proof.Machine.execInfieldTestTimeout core s
  | .reset image => Sys2Proof.Machine.execReset image s
  | .l2LoadAnswer core line => Sys2Proof.Machine.execL2LoadAnswer core line s
  | .memberScratchpadAccess id => Sys2Proof.Machine.execMemberScratchpadAccess id s
  | .ctxcmdComplete => Sys2Proof.Machine.execCtxcmdComplete s
  | .hotLimitClear => Sys2Proof.Machine.execHotLimitClear s
  | .leaseExpiry line => Sys2Proof.Machine.execLeaseExpiry line s
  | .nop => Sys2Proof.Machine.execNop s
  | .exit => Sys2Proof.Machine.execExit s
  | .lexit => Sys2Proof.Machine.execLexit s
  | .yield => Sys2Proof.Machine.execYield s
  | .sys => Sys2Proof.Machine.execSys s
  | .brk => Sys2Proof.Machine.execBrk s
  | .sigrst => Sys2Proof.Machine.execSigrst s
  | .fetchb => Sys2Proof.Machine.execFetchb s
  | .win n => Sys2Proof.Machine.execWin n s
  | .wait d a n all => Sys2Proof.Machine.execWait d a n all s
  | .waitc => Sys2Proof.Machine.execWaitc s
  | .launch d a => Sys2Proof.Machine.execLaunch d a s
  | .srd d imm => Sys2Proof.Machine.execSrd d imm s
  | .swr imm d => Sys2Proof.Machine.execSwr imm d s
  | .jr a => Sys2Proof.Machine.execJr a s
  | .jlr d a => Sys2Proof.Machine.execJlr d a s
  | .pinon => Sys2Proof.Machine.execPinon s
  | .pinoff => Sys2Proof.Machine.execPinoff s
  | .sadd d a b => Sys2Proof.Machine.execSadd d a b s
  | .ssub d a b => Sys2Proof.Machine.execSsub d a b s
  | .smul d a b => Sys2Proof.Machine.execSmul d a b s
  | .smulh d a b => Sys2Proof.Machine.execSmulh d a b s
  | .smulhu d a b => Sys2Proof.Machine.execSmulhu d a b s
  | .sdiv d a b => Sys2Proof.Machine.execSdiv d a b s
  | .sdivu d a b => Sys2Proof.Machine.execSdivu d a b s
  | .srem d a b => Sys2Proof.Machine.execSrem d a b s
  | .sremu d a b => Sys2Proof.Machine.execSremu d a b s
  | .sand d a b => Sys2Proof.Machine.execSand d a b s
  | .sor d a b => Sys2Proof.Machine.execSor d a b s
  | .sxor d a b => Sys2Proof.Machine.execSxor d a b s
  | .sandn d a b => Sys2Proof.Machine.execSandn d a b s
  | .sshl d a b => Sys2Proof.Machine.execSshl d a b s
  | .sshr d a b => Sys2Proof.Machine.execSshr d a b s
  | .ssra d a b => Sys2Proof.Machine.execSsra d a b s
  | .smin d a b => Sys2Proof.Machine.execSmin d a b s
  | .smax d a b => Sys2Proof.Machine.execSmax d a b s
  | .sminu d a b => Sys2Proof.Machine.execSminu d a b s
  | .smaxu d a b => Sys2Proof.Machine.execSmaxu d a b s
  | .sclz d a => Sys2Proof.Machine.execSclz d a s
  | .sctz d a => Sys2Proof.Machine.execSctz d a s
  | .spopc d a => Sys2Proof.Machine.execSpopc d a s
  | .sbrev d a => Sys2Proof.Machine.execSbrev d a s
  | .sbfe d a b => Sys2Proof.Machine.execSbfe d a b s
  | .sbfeu d a b => Sys2Proof.Machine.execSbfeu d a b s
  | .sbfi d a b => Sys2Proof.Machine.execSbfi d a b s
  | .scmp a b => Sys2Proof.Machine.execScmp a b s
  | .ssel d a b => Sys2Proof.Machine.execSsel d a b s
  | .saddi d a imm => Sys2Proof.Machine.execSaddi d a imm s
  | .sandi d a imm => Sys2Proof.Machine.execSandi d a imm s
  | .sori d a imm => Sys2Proof.Machine.execSori d a imm s
  | .sxori d a imm => Sys2Proof.Machine.execSxori d a imm s
  | .sshli d a n => Sys2Proof.Machine.execSshli d a n s
  | .sshri d a n => Sys2Proof.Machine.execSshri d a n s
  | .ssrai d a n => Sys2Proof.Machine.execSsrai d a n s
  | .sroti d a n => Sys2Proof.Machine.execSroti d a n s
  | .scmpi a imm => Sys2Proof.Machine.execScmpi a imm s
  | .slui d imm => Sys2Proof.Machine.execSlui d imm s
  | .slhi d imm => Sys2Proof.Machine.execSlhi d imm s
  | .br c o => Sys2Proof.Machine.execBr c o s
  | .bl c o => Sys2Proof.Machine.execBl c o s
  | .sldb d a imm => Sys2Proof.Machine.execSldb d a imm s
  | .sldh d a imm => Sys2Proof.Machine.execSldh d a imm s
  | .sldw d a imm => Sys2Proof.Machine.execSldw d a imm s
  | .sldd d a imm => Sys2Proof.Machine.execSldd d a imm s
  | .sstb d a imm => Sys2Proof.Machine.execSstb d a imm s
  | .ssth d a imm => Sys2Proof.Machine.execSsth d a imm s
  | .sstw d a imm => Sys2Proof.Machine.execSstw d a imm s
  | .sstd d a imm => Sys2Proof.Machine.execSstd d a imm s
  | .vldb h d adr => Sys2Proof.Machine.execVldb h d adr s
  | .vldh h d adr => Sys2Proof.Machine.execVldh h d adr s
  | .vldw h d adr => Sys2Proof.Machine.execVldw h d adr s
  | .vldd h d adr => Sys2Proof.Machine.execVldd h d adr s
  | .vldq h d adr => Sys2Proof.Machine.execVldq h d adr s
  | .vstb h d adr => Sys2Proof.Machine.execVstb h d adr s
  | .vsth h d adr => Sys2Proof.Machine.execVsth h d adr s
  | .vstw h d adr => Sys2Proof.Machine.execVstw h d adr s
  | .vstd h d adr => Sys2Proof.Machine.execVstd h d adr s
  | .vstq h d adr => Sys2Proof.Machine.execVstq h d adr s
  | .atomAddW d adr => Sys2Proof.Machine.execAtomAddW d adr s
  | .atomAddD d adr => Sys2Proof.Machine.execAtomAddD d adr s
  | .atomMinW d adr => Sys2Proof.Machine.execAtomMinW d adr s
  | .atomMaxW d adr => Sys2Proof.Machine.execAtomMaxW d adr s
  | .atomMinuW d adr => Sys2Proof.Machine.execAtomMinuW d adr s
  | .atomMaxuW d adr => Sys2Proof.Machine.execAtomMaxuW d adr s
  | .atomMinD d adr => Sys2Proof.Machine.execAtomMinD d adr s
  | .atomMaxD d adr => Sys2Proof.Machine.execAtomMaxD d adr s
  | .atomAndW d adr => Sys2Proof.Machine.execAtomAndW d adr s
  | .atomOrW d adr => Sys2Proof.Machine.execAtomOrW d adr s
  | .atomXorW d adr => Sys2Proof.Machine.execAtomXorW d adr s
  | .atomAndD d adr => Sys2Proof.Machine.execAtomAndD d adr s
  | .atomOrD d adr => Sys2Proof.Machine.execAtomOrD d adr s
  | .atomXorD d adr => Sys2Proof.Machine.execAtomXorD d adr s
  | .atomSwapW d adr => Sys2Proof.Machine.execAtomSwapW d adr s
  | .atomSwapD d adr => Sys2Proof.Machine.execAtomSwapD d adr s
  | .atomCasW d adr => Sys2Proof.Machine.execAtomCasW d adr s
  | .atomCasD d adr => Sys2Proof.Machine.execAtomCasD d adr s
  | .atomFaddF32 d adr => Sys2Proof.Machine.execAtomFaddF32 d adr s
  | .atomFaddF64 d adr => Sys2Proof.Machine.execAtomFaddF64 d adr s
  | .atomFminF32 d adr => Sys2Proof.Machine.execAtomFminF32 d adr s
  | .atomFmaxF32 d adr => Sys2Proof.Machine.execAtomFmaxF32 d adr s
  | .spldb d a b => Sys2Proof.Machine.execSpldb d a b s
  | .spldh d a b => Sys2Proof.Machine.execSpldh d a b s
  | .spldw d a b => Sys2Proof.Machine.execSpldw d a b s
  | .spldd d a b => Sys2Proof.Machine.execSpldd d a b s
  | .spldq d a b => Sys2Proof.Machine.execSpldq d a b s
  | .spstb d a b => Sys2Proof.Machine.execSpstb d a b s
  | .spsth d a b => Sys2Proof.Machine.execSpsth d a b s
  | .spstw d a b => Sys2Proof.Machine.execSpstw d a b s
  | .spstd d a b => Sys2Proof.Machine.execSpstd d a b s
  | .spstq d a b => Sys2Proof.Machine.execSpstq d a b s
  | .spatomAdd d a b => Sys2Proof.Machine.execSpatomAdd d a b s
  | .spatomMin d a b => Sys2Proof.Machine.execSpatomMin d a b s
  | .spatomMax d a b => Sys2Proof.Machine.execSpatomMax d a b s
  | .spatomSwap d a b => Sys2Proof.Machine.execSpatomSwap d a b s
  | .spatomCas d a b => Sys2Proof.Machine.execSpatomCas d a b s
  | .spatomFadd d a b => Sys2Proof.Machine.execSpatomFadd d a b s
  | .fenceCore => Sys2Proof.Machine.execFenceCore s
  | .fencePkg => Sys2Proof.Machine.execFencePkg s
  | .fenceSpan => Sys2Proof.Machine.execFenceSpan s
  | .cflush a b => Sys2Proof.Machine.execCflush a b s
  | .cinv a b => Sys2Proof.Machine.execCinv a b s
  | .pref a b => Sys2Proof.Machine.execPref a b s
  | .icinv a b => Sys2Proof.Machine.execIcinv a b s
  | .rput d a b => Sys2Proof.Machine.execRput d a b s
  | .rputf d a b => Sys2Proof.Machine.execRputf d a b s
  | .rget d a b => Sys2Proof.Machine.execRget d a b s
  | .ratom d a b => Sys2Proof.Machine.execRatom d a b s
  | .satomAdd d a => Sys2Proof.Machine.execSatomAdd d a s
  | .satomSwap d a => Sys2Proof.Machine.execSatomSwap d a s
  | .satomCas d a b => Sys2Proof.Machine.execSatomCas d a b s
  | .satomMin d a => Sys2Proof.Machine.execSatomMin d a s
  | .satomMax d a => Sys2Proof.Machine.execSatomMax d a s
  | .satomOr d a => Sys2Proof.Machine.execSatomOr d a s
  | .satomAnd d a => Sys2Proof.Machine.execSatomAnd d a s
  | .vadd d a b => Sys2Proof.Machine.execVadd d a b s
  | .vsub d a b => Sys2Proof.Machine.execVsub d a b s
  | .vmul d a b => Sys2Proof.Machine.execVmul d a b s
  | .vmulh d a b => Sys2Proof.Machine.execVmulh d a b s
  | .vmulhu d a b => Sys2Proof.Machine.execVmulhu d a b s
  | .vmad d a b => Sys2Proof.Machine.execVmad d a b s
  | .vand d a b => Sys2Proof.Machine.execVand d a b s
  | .vor d a b => Sys2Proof.Machine.execVor d a b s
  | .vxor d a b => Sys2Proof.Machine.execVxor d a b s
  | .vandn d a b => Sys2Proof.Machine.execVandn d a b s
  | .vshl d a b => Sys2Proof.Machine.execVshl d a b s
  | .vshr d a b => Sys2Proof.Machine.execVshr d a b s
  | .vsra d a b => Sys2Proof.Machine.execVsra d a b s
  | .vmin d a b => Sys2Proof.Machine.execVmin d a b s
  | .vminu d a b => Sys2Proof.Machine.execVminu d a b s
  | .vmax d a b => Sys2Proof.Machine.execVmax d a b s
  | .vmaxu d a b => Sys2Proof.Machine.execVmaxu d a b s
  | .vabs d a => Sys2Proof.Machine.execVabs d a s
  | .vneg d a => Sys2Proof.Machine.execVneg d a s
  | .vclz d a => Sys2Proof.Machine.execVclz d a s
  | .vpopc d a => Sys2Proof.Machine.execVpopc d a s
  | .vbrev d a => Sys2Proof.Machine.execVbrev d a s
  | .vbfe d a b => Sys2Proof.Machine.execVbfe d a b s
  | .vbfeu d a b => Sys2Proof.Machine.execVbfeu d a b s
  | .vbfi d a b => Sys2Proof.Machine.execVbfi d a b s
  | .vadd64 d a b => Sys2Proof.Machine.execVadd64 d a b s
  | .vsub64 d a b => Sys2Proof.Machine.execVsub64 d a b s
  | .vmul64 d a b => Sys2Proof.Machine.execVmul64 d a b s
  | .vshl64 d a b => Sys2Proof.Machine.execVshl64 d a b s
  | .vshr64 d a b => Sys2Proof.Machine.execVshr64 d a b s
  | .vsra64 d a b => Sys2Proof.Machine.execVsra64 d a b s
  | .vdp4 d a b => Sys2Proof.Machine.execVdp4 d a b s
  | .vdp4u d a b => Sys2Proof.Machine.execVdp4u d a b s
  | .vmov d a => Sys2Proof.Machine.execVmov d a s
  | .sigchk imm => Sys2Proof.Machine.execSigchk imm s
  | .vmovi d imm => Sys2Proof.Machine.execVmovi d imm s
  | .vfadd d a b => Sys2Proof.Machine.execVfadd d a b s
  | .vfsub d a b => Sys2Proof.Machine.execVfsub d a b s
  | .vfmul d a b => Sys2Proof.Machine.execVfmul d a b s
  | .vfma d a b => Sys2Proof.Machine.execVfma d a b s
  | .vfms d a b => Sys2Proof.Machine.execVfms d a b s
  | .vfnma d a b => Sys2Proof.Machine.execVfnma d a b s
  | .vfmin d a b => Sys2Proof.Machine.execVfmin d a b s
  | .vfmax d a b => Sys2Proof.Machine.execVfmax d a b s
  | .vfabs d a => Sys2Proof.Machine.execVfabs d a s
  | .vfneg d a => Sys2Proof.Machine.execVfneg d a s
  | .vfcpsgn d a b => Sys2Proof.Machine.execVfcpsgn d a b s
  | .vfscale d a b => Sys2Proof.Machine.execVfscale d a b s
  | .vfrndn d a => Sys2Proof.Machine.execVfrndn d a s
  | .vfrndz d a => Sys2Proof.Machine.execVfrndz d a s
  | .vfrndu d a => Sys2Proof.Machine.execVfrndu d a s
  | .vfrndd d a => Sys2Proof.Machine.execVfrndd d a s
  | .vfdiv d a b => Sys2Proof.Machine.execVfdiv d a b s
  | .vfsqrt d a => Sys2Proof.Machine.execVfsqrt d a s
  | .vfrcp d a => Sys2Proof.Machine.execVfrcp d a s
  | .vfrsq d a => Sys2Proof.Machine.execVfrsq d a s
  | .vdadd d a b => Sys2Proof.Machine.execVdadd d a b s
  | .vdsub d a b => Sys2Proof.Machine.execVdsub d a b s
  | .vdmul d a b => Sys2Proof.Machine.execVdmul d a b s
  | .vdfma d a b => Sys2Proof.Machine.execVdfma d a b s
  | .vdfms d a b => Sys2Proof.Machine.execVdfms d a b s
  | .vdfnma d a b => Sys2Proof.Machine.execVdfnma d a b s
  | .vdmin d a b => Sys2Proof.Machine.execVdmin d a b s
  | .vdmax d a b => Sys2Proof.Machine.execVdmax d a b s
  | .vdabs d a => Sys2Proof.Machine.execVdabs d a s
  | .vdneg d a => Sys2Proof.Machine.execVdneg d a s
  | .vdscale d a b => Sys2Proof.Machine.execVdscale d a b s
  | .vdrndn d a => Sys2Proof.Machine.execVdrndn d a s
  | .vdrndz d a => Sys2Proof.Machine.execVdrndz d a s
  | .vddiv d a b => Sys2Proof.Machine.execVddiv d a b s
  | .vdsqrt d a => Sys2Proof.Machine.execVdsqrt d a s
  | .vdrcp d a => Sys2Proof.Machine.execVdrcp d a s
  | .vdrsq d a => Sys2Proof.Machine.execVdrsq d a s
  | .vhadd t d a b => Sys2Proof.Machine.execVhadd t d a b s
  | .vhsub t d a b => Sys2Proof.Machine.execVhsub t d a b s
  | .vhmul t d a b => Sys2Proof.Machine.execVhmul t d a b s
  | .vhfma t d a b => Sys2Proof.Machine.execVhfma t d a b s
  | .vhmin t d a b => Sys2Proof.Machine.execVhmin t d a b s
  | .vhmax t d a b => Sys2Proof.Machine.execVhmax t d a b s
  | .vhdot2 t d a b => Sys2Proof.Machine.execVhdot2 t d a b s
  | .vcvtF64F32 d a => Sys2Proof.Machine.execVcvtF64F32 d a s
  | .vcvtF32F64 d a => Sys2Proof.Machine.execVcvtF32F64 d a s
  | .vcvtBf16F32 d a b => Sys2Proof.Machine.execVcvtBf16F32 d a b s
  | .vcvtF32Bf16 d a => Sys2Proof.Machine.execVcvtF32Bf16 d a s
  | .vcvtF16F32 d a b => Sys2Proof.Machine.execVcvtF16F32 d a b s
  | .vcvtF32F16 d a => Sys2Proof.Machine.execVcvtF32F16 d a s
  | .vcvtE4m3F32 d a b => Sys2Proof.Machine.execVcvtE4m3F32 d a b s
  | .vcvtE5m2F32 d a b => Sys2Proof.Machine.execVcvtE5m2F32 d a b s
  | .vcvtF32E4m3 d a => Sys2Proof.Machine.execVcvtF32E4m3 d a s
  | .vcvtF32E5m2 d a => Sys2Proof.Machine.execVcvtF32E5m2 d a s
  | .vcvtS32F32 d a => Sys2Proof.Machine.execVcvtS32F32 d a s
  | .vcvtU32F32 d a => Sys2Proof.Machine.execVcvtU32F32 d a s
  | .vcvtF32S32 d a => Sys2Proof.Machine.execVcvtF32S32 d a s
  | .vcvtF32U32 d a => Sys2Proof.Machine.execVcvtF32U32 d a s
  | .vcvtS64F64 d a => Sys2Proof.Machine.execVcvtS64F64 d a s
  | .vcvtF64S64 d a => Sys2Proof.Machine.execVcvtF64S64 d a s
  | .vcvtS32F64 d a => Sys2Proof.Machine.execVcvtS32F64 d a s
  | .vcvtF64S32 d a => Sys2Proof.Machine.execVcvtF64S32 d a s
  | .vfclass d a => Sys2Proof.Machine.execVfclass d a s
  | .vdclass d a => Sys2Proof.Machine.execVdclass d a s
  | .vexp2 d a => Sys2Proof.Machine.execVexp2 d a s
  | .vlog2 d a => Sys2Proof.Machine.execVlog2 d a s
  | .vsin d a => Sys2Proof.Machine.execVsin d a s
  | .vcos d a => Sys2Proof.Machine.execVcos d a s
  | .teval d a => Sys2Proof.Machine.execTeval d a s
  | .tld a b => Sys2Proof.Machine.execTld a b s
  | .vicmpEq d a b => Sys2Proof.Machine.execVicmpEq d a b s
  | .vicmpNe d a b => Sys2Proof.Machine.execVicmpNe d a b s
  | .vicmpLt d a b => Sys2Proof.Machine.execVicmpLt d a b s
  | .vicmpLe d a b => Sys2Proof.Machine.execVicmpLe d a b s
  | .vicmpLtu d a b => Sys2Proof.Machine.execVicmpLtu d a b s
  | .vicmpLeu d a b => Sys2Proof.Machine.execVicmpLeu d a b s
  | .vicmp64Eq d a b => Sys2Proof.Machine.execVicmp64Eq d a b s
  | .vicmp64Lt d a b => Sys2Proof.Machine.execVicmp64Lt d a b s
  | .vicmp64Ltu d a b => Sys2Proof.Machine.execVicmp64Ltu d a b s
  | .vfcmpEq d a b => Sys2Proof.Machine.execVfcmpEq d a b s
  | .vfcmpNe d a b => Sys2Proof.Machine.execVfcmpNe d a b s
  | .vfcmpLt d a b => Sys2Proof.Machine.execVfcmpLt d a b s
  | .vfcmpLe d a b => Sys2Proof.Machine.execVfcmpLe d a b s
  | .vfcmpUn d a b => Sys2Proof.Machine.execVfcmpUn d a b s
  | .vdcmpEq d a b => Sys2Proof.Machine.execVdcmpEq d a b s
  | .vdcmpNe d a b => Sys2Proof.Machine.execVdcmpNe d a b s
  | .vdcmpLt d a b => Sys2Proof.Machine.execVdcmpLt d a b s
  | .vdcmpLe d a b => Sys2Proof.Machine.execVdcmpLe d a b s
  | .vdcmpUn d a b => Sys2Proof.Machine.execVdcmpUn d a b s
  | .pand d a b => Sys2Proof.Machine.execPand d a b s
  | .por d a b => Sys2Proof.Machine.execPor d a b s
  | .pxor d a b => Sys2Proof.Machine.execPxor d a b s
  | .pandn d a b => Sys2Proof.Machine.execPandn d a b s
  | .pnot d a => Sys2Proof.Machine.execPnot d a s
  | .pset d a => Sys2Proof.Machine.execPset d a s
  | .psave d a => Sys2Proof.Machine.execPsave d a s
  | .prest d a => Sys2Proof.Machine.execPrest d a s
  | .ballot d a => Sys2Proof.Machine.execBallot d a s
  | .mandp a => Sys2Proof.Machine.execMandp a s
  | .mandnp a => Sys2Proof.Machine.execMandnp a s
  | .msetp a => Sys2Proof.Machine.execMsetp a s
  | .pcnt d a => Sys2Proof.Machine.execPcnt d a s
  | .vperm d a b => Sys2Proof.Machine.execVperm d a b s
  | .vshflx d a b => Sys2Proof.Machine.execVshflx d a b s
  | .vshflu d a b => Sys2Proof.Machine.execVshflu d a b s
  | .vshfld d a b => Sys2Proof.Machine.execVshfld d a b s
  | .vbcast d a b => Sys2Proof.Machine.execVbcast d a b s
  | .vredAdd d a => Sys2Proof.Machine.execVredAdd d a s
  | .vredMin d a => Sys2Proof.Machine.execVredMin d a s
  | .vredMax d a => Sys2Proof.Machine.execVredMax d a s
  | .vredAnd d a => Sys2Proof.Machine.execVredAnd d a s
  | .vredOr d a => Sys2Proof.Machine.execVredOr d a s
  | .vredXor d a => Sys2Proof.Machine.execVredXor d a s
  | .vfredAdd d a => Sys2Proof.Machine.execVfredAdd d a s
  | .vscanAdd d a => Sys2Proof.Machine.execVscanAdd d a s
  | .vlane d => Sys2Proof.Machine.execVlane d s
  | .cpy c p a b => Sys2Proof.Machine.execCpy c p a b s
  | .swinit a b => Sys2Proof.Machine.execSwinit a b s
  | .bara d a w => Sys2Proof.Machine.execBara d a w s
  | .bard d a => Sys2Proof.Machine.execBard d a s
  | .wmrd d n => Sys2Proof.Machine.execWmrd d n s
  | .wmclr n => Sys2Proof.Machine.execWmclr n s
  | .wmabort n => Sys2Proof.Machine.execWmabort n s
  | .mfmt a => Sys2Proof.Machine.execMfmt a s
  | .mma d a b => Sys2Proof.Machine.execMma d a b s
  | .mmaL d a b => Sys2Proof.Machine.execMmaL d a b s
  | .mzero d => Sys2Proof.Machine.execMzero d s
  | .acrd d n wide b => Sys2Proof.Machine.execAcrd d n wide b s
  | .acwr d n wide b => Sys2Proof.Machine.execAcwr d n wide b s
  | .tbw d n b => Sys2Proof.Machine.execTbw d n b s
  | .tbr d n b => Sys2Proof.Machine.execTbr d n b s
  | .mpert a b => Sys2Proof.Machine.execMpert a b s
  | .msync => Sys2Proof.Machine.execMsync s
  | .seqgo a => Sys2Proof.Machine.execSeqgo a s
  | .vsel p d a b => Sys2Proof.Machine.execVsel p d a b s
  | .vpmov p d b => Sys2Proof.Machine.execVpmov p d b s
  | .uisend a b => Sys2Proof.Machine.execUisend a b s
  | .uisendw a b => Sys2Proof.Machine.execUisendw a b s
  | .uiret => Sys2Proof.Machine.execUiret s
  | .uiack d b => Sys2Proof.Machine.execUiack d b s
  | .uipoll d => Sys2Proof.Machine.execUipoll d s
  | .trapret => Sys2Proof.Machine.execTrapret s
  | .srdp d imm => Sys2Proof.Machine.execSrdp d imm s
  | .swrp imm d => Sys2Proof.Machine.execSwrp imm d s
  | .lsel a => Sys2Proof.Machine.execLsel a s
  | .lrdv d a => Sys2Proof.Machine.execLrdv d a s
  | .lwrv d a => Sys2Proof.Machine.execLwrv d a s
  | .lrdp d a => Sys2Proof.Machine.execLrdp d a s
  | .lwrp d a => Sys2Proof.Machine.execLwrp d a s
  | .tlbinv a b => Sys2Proof.Machine.execTlbinv a b s
  | .tlbsync => Sys2Proof.Machine.execTlbsync s
  | .freplay => Sys2Proof.Machine.execFreplay s
  | .fdrop => Sys2Proof.Machine.execFdrop s
  | .halt a => Sys2Proof.Machine.execHalt a s

end Sys2Proof.Machine
end

