-- ==== Sys2Proof/Machine/Issue.lean ====
section
/-! DEFINITION. One step of the package: a due event, or one turn of one thread, with the fetch of its word (03 R90), its
traps and its handler, in a rota over the cores and their sequencers (14 R326 to R328; log 2); and how a single word is
placed so that the next step runs it. -/
namespace Sys2Proof.Machine

/-! ### Fetch (01 R29, 03 R90, 09 R241) -/

/-- The answer to a fetch. -/
inductive FetchAns where
  | word (w : Word)
  | trap (t : Trap)
  | pending
deriving DecidableEq, Repr

/-- A line through the instruction cache of 64 KiB (00, 03 R90); stores never update it. -/
def fetchLine (s : State) (core slot pa : Nat) (nc cen : Bool) : L2Ans × State :=
  match (s.core core).icache.find? fun l => l.1 == pa / 128 with
  | some l => (.data l.2 false, s)
  | none => match physRead s slot (pa / 128 * 128) 128 nc cen with
    | (.data d psn, s) =>
      (.data d psn, if psn || isRegLine s (pa / 128) then s
        else s.modCore core fun k => { k with icache := (pa / 128, d) :: k.icache.take 511 })
    | r => r
/-- A translated fetch of the thread that is checked out: while its line is on its way it is under way, and holds its
translation (01 R38). A poisoned line is not executed (log 32). DESIGN CHOICE: at a PC that is no multiple of 4 the four bytes
there are the word, with zeros past the end of the line (log 66). -/
def fetchAt (pa : Nat) (nc cen : Bool) (s : State) : FetchAns × State :=
  let pc := s.cur.pc
  let ended (s : State) : State := s.modCur fun t => { t with fetching := none }
  match takeExpired s (pa / 128) false with
  | (some code, s) => (.trap ⟨code, 0, pc⟩, ended s)
  | (none, s) => match fetchLine s s.cur.core (s.slotOf s.cur) pa nc cen with
    | (.pending, s) => (.pending, s.modCur fun t => { t with fetching := some (pc, pa, nc, cen) })
    | (.lost, s) => (.trap ⟨HOME_LOST, 0, pc⟩, ended s)
    | (.data d psn, s) =>
      if psn then (.trap poisonTrap, ended s)
      else
        let w : Word := BitVec.ofNat 32 (lineGet d (pa % 128) 4)
        (.word w, (ended s).modCur fun t => { t with fetched := some (pc, w) })
/-- The word at the PC of the thread that is checked out. -/
def fetch (s : State) : FetchAns × State :=
  let t := s.cur
  let slot := s.slotOf t
  match t.fetched.filter fun f => f.1 == t.pc with
  | some f => (.word f.2, s)
  | none => match t.fetching.filter fun f => f.1 == t.pc with
    | some f => fetchAt f.2.1 f.2.2.1 f.2.2.2 s
    | none => match xlat s t.core slot t.pc .fetch (t.mode == .sup) none with
      | (.pending, s) => (.pending, s)
      | (.fault x, s) => (.trap x, s)
      | (.ok pa cen, s) => fetchAt pa (inWindow (s.ctx slot) t.pc.toNat) cen s

/-! ### The turn of a thread -/

/-- The turn of the thread that is checked out, in this order: its log goes on (11 R267), its oldest fault is taken (15 R338),
its handler is entered (13 R316), the acquire with which it began goes on (03 R79), its wait is looked at again (14 R329), or
its next word is fetched and `go` runs it. DESIGN CHOICE: FLTINSN of a trap of the fetch itself is 0 (log 101). -/
def attend (go : State → Host.Outcome State Fault Refusal) (s : State) : Host.Outcome State Fault Refusal :=
  let s := pumpLog none s
  if trapDue s.cur then .next (trapOldest s)
  else if handlerDue s s.cur then .next (enterHandler s)
  else
  let s := if s.cur.mode == .sup then s else acquireStep s
  if s.cur.mode != .sup && s.cur.acq.isSome then .next s
  else match fetch s with
    | (.pending, s) => .next (s.modCur fun t => { t with stall := true })
    | (.trap x, s) => .next (raise s x s.cur.pc 0)
    | (.word w, s) =>
      let s : State := { s with iw := w }
      if s.cur.wait == .none then go s
      else if s.cur.wait.before then
        -- still waiting, or ready: then it is issued at its own time
        let again := s.modCur fun t => { t with wait := .none, stall := false }
        match go again with
        | .next r => .next (if r.out && r.cur.wait.before then r else again)
        | x => x
      else
        let r := resume s
        -- a WAIT for ALL that a satisfied kind 4 does not end is abandoned (09 R235)
        .next (match r.cur.wait with
          | .wait _ true _ _ => if deliverable r r.cur && mayEnter r.cur then enterHandler r else r
          | _ => r)

/-- What the package itself goes on with in every step: arrivals and launch port stores, prefetches, invalidations. -/
def settle (s : State) : State := invalSettle (pruneDevReads (sbAgain (prefetchAgain (settleAll (sbPrune s)))))
/-- What follows every step: the thread goes back to its place, the clock stands where it stood, and EVCMD may be done. -/
def endStep (now : Nat) (s : State) : State :=
  { evSettle (saveSettle (settle s.checkIn)) with now := now, cur := Thread.blank, out := false }
/-- After a turn: whether the thread leaves the active set (14 R326); what it did wakes those that could not go on. One
that turns out not to be ready leaves its core's place in the rota to the others. -/
def endTurn (old : Thread) (missed now : Nat) (s : State) : State :=
  if !s.out then endStep now s.wake
  else
    let leaves := leavesNow missed s
    let s := (looked leaves s).modCur fun t => { t with
      idle := t.stall || leaves
      readyAt := if leaves || (old.wait != .none && t.wait == .none) then s.now else t.readyAt }
    endStep now (if s.cur.stall then { s with turn := 2 * old.core + old.stream.toNat } else s.wake)
/-- One turn of a thread. -/
def takeTurn (go : State → Host.Outcome State Fault Refusal) (t : Thread) (s : State) : Host.Outcome State Fault Refusal :=
  match attend go (s.checkOut t) with
  | .next r => .next (endTurn t (misses s t.uid t.core) s.now r)
  | .fault f => .fault f
  | .refused r => .refused r
/-- A group that something may have let go on is looked at: it is ready from now on, without issuing, or it still
cannot go on (14 R326). -/
def probe (go : State → Host.Outcome State Fault Refusal) (t : Thread) (s : State) : Host.Outcome State Fault Refusal :=
  match attend go (s.checkOut t) with
  | .next r =>
    let missed := misses s t.uid t.core
    if r.out && r.cur.stall then .next (endTurn t missed s.now r)
    else
      let p := pumpLog none (s.checkOut t)
      let leaves := leavesNow missed p
      .next (endStep s.now ((looked leaves p).modCur fun t => { t with idle := leaves, readyAt := s.now }))
  | .fault f => .fault f
  | .refused r => .refused r

/-! ### The rota (14 R326 to R328) -/

/-- The place of a thread in the rota: its core's groups, then its sequencer. -/
def Thread.place (t : Thread) : Nat := 2 * t.core + t.stream.toNat
/-- The first place of the rota, from the present one on, that has a thread which can go on. -/
def nextPlace (s : State) : Option Nat :=
  s.threads.foldl (fun (m : Option Nat) t =>
    if t.stall || t.place < s.turn then m
    else match m with
      | none => some t.place
      | some k => some (min k t.place)) none
/-- Free places of a core's active set go to its oldest ready pending groups (14 R326). -/
def fillActive (core : Nat) : Nat → State → State
  | 0, s => s
  | n + 1, s =>
    let gs := s.threads.filter fun t => t.core == core && !t.stream
    if 8 ≤ (gs.filter fun t => t.active).length then s
    else match oldest (gs.filter fun t => !t.active && t.ready) with
      | none => s
      | some t => fillActive core n (s.modThread t.uid fun t => { t with active := true, activeAt := s.now })
/-- A group has not issued for 7 cycles (14 R327); one that has not issued yet counts as such (14 R328). -/
def Thread.overdue (t : Thread) (now : Nat) : Bool := t.issuedAt.all fun k => k + 8 ≤ now
/-- The group that issues: a ready active group that has not issued for 7 cycles, then the oldest (14 R327). -/
def chooseGroup (s : State) (core : Nat) : Option Thread :=
  let gs := s.threads.filter fun t => t.core == core && !t.stream && t.active && t.ready
  match oldest (gs.filter fun t => t.overdue s.now) with
  | some t => some t
  | none => oldest gs

/-- The thread that has its turn at a place of the rota, and the state from which it takes it: one whose wait is looked at
again, the core's stream, or the group that issues (14 R326 to R328). -/
def pickTurn (k : Nat) (s : State) : Option Thread × State :=
  let mine (t : Thread) : Bool := t.place == k && !t.stall
  match s.threads.find? fun t => mine t && t.wait != .none with
  | some t => (some t, s)
  | none =>
    let s : State := { s with turn := k + 1 }
    if k % 2 == 1 then (s.threads.find? mine, s)
    else
      let s := activeSwap (fillActive (k / 2) 8 s) (k / 2)
      (chooseGroup s (k / 2), s)
/-- A group at a place of the rota that could not go on when it was last looked at, and is to be looked at again. -/
def Thread.unseen (k : Nat) (t : Thread) : Bool :=
  t.place == k && !t.stream && t.idle && !t.stall && t.wait == .none
/-- One turn at a place of the rota. -/
def placeTurn (go : State → Host.Outcome State Fault Refusal) (k : Nat) (s : State) : Host.Outcome State Fault Refusal :=
  match s.threads.find? (Thread.unseen k) with
  | some t => probe go t s
  | none => match pickTurn k s with
    | (some t, s) => takeTurn go t s
    | (none, s) => .next s
/-- A round of the rota is over, and with it the tick: the next tick, or, when nothing can go on, the tick of the next event. -/
def nextRound (s : State) : State :=
  let s := waitsOver s
  if s.threads.any fun t => !t.stall then { s with turn := 0, now := s.now + 1 }
  else State.wake { s with turn := 0, now := match s.agenda with
    | (d, _) :: _ => max (s.now + 1) d
    | [] => s.now + 1 }
/-- A turn: threads whose grid was ended leave first (15 R340). -/
def turn (go : State → Host.Outcome State Fault Refusal) (s : State) : Host.Outcome State Fault Refusal :=
  match s.threads.find? fun t => t.ending with
  | some t => .next (endStep s.now (leave s t.uid).wake)
  | none => match nextPlace s with
    | some k => placeTurn go k s
    | none => .next (nextRound s)
/-- One step: a due event, which `run` performs, or a turn (log 2). -/
def stepWith (run : Instr → State → Host.Outcome State Fault Refusal) (go : State → Host.Outcome State Fault Refusal)
    (s : State) : Host.Outcome State Fault Refusal :=
  match s.agenda with
  | (d, i) :: rest =>
    if d ≤ s.now then
      match run i { s with agenda := rest } with
      | .next r => .next (endStep s.now r.wake)
      | .fault f => .fault f
      | .refused r => .refused r
    else turn go s
  | [] => turn go s
/-- Decode the word that is issuing, in the mode of its thread, and run it (07 R184). -/
noncomputable def runWord (run : Instr → State → Host.Outcome State Fault Refusal) (s : State) :
    Host.Outcome State Fault Refusal :=
  match decode s.cur.decodeMode s.iw with
  | .ok i => run i s
  | .error r => .next (conclude s (.trap s (rejectTrap s.cur.pc r)))

/-! ### Placing one word (log 33) -/

/-- The launch record of the grid that a placed word runs in: one cluster of one team of one group. -/
def placedRec : LaunchRec where
  kentry := 0x10000
  sentry := 0
  gpt := 0
  ch := 1
  cw := 1
  gx := 1
  gy := 1
  gz := 1
  ciq := false
  cts := false
  csw := false
  naft := 0
  lr := false
  prio := 0
  eclass := 0
  scrb := 0
  regs := 2
  lastl := 96
  ltbase := 0
  param := 0
  aftb := 0
  cblk := 0
  swaddr := 0
  tsaddr := 0
  tsval := 0
  uiv := 0
  uidata := 0
/-- The mode in which a word is an instruction: supervisor mode for those of the PRIV major. -/
noncomputable def placedMode (w : Word) : Mode :=
  match decode .user w with
  | .ok _ => .user
  | .error _ => .sup
/-- A state whose next step runs a word: package booted, context entry 0 loaded, one group of one team active on core 0 at
VA 0x10000, which its instruction TLB maps to the word in memory. Other threads wait for this step, events for the next. -/
noncomputable def placeWord (s : State) (w : Word) : State :=
  let pa := s.self * 2 ^ 42 + 0x10000
  let uid := s.seq
  let t : Thread := { newGroup placedRec uid (uid + 1) 0 0 s.now with
    mode := placedMode w, active := true, acq := none, idle := false }
  let line := pa / 128
  let mem := Mem.store s.mem 0x10000 4 w.toNat
  let team : Team := ⟨uid + 1, uid + 3, uid + 2, 0, 0, 0, 0, 0, [], List.replicate 16 Watermark.idle, ActTable.zero, none, none,
    none, false⟩
  let grid : Grid := ⟨uid + 3, 0, 0, placedRec, false, none, [], .running, 1, false, 0, [], none, [], none⟩
  let s := (s.modCtx 0 fun c => { c with status := .loaded }).modCore 0 fun k => { k with
    icache := k.icache.filter fun l => l.1 != line
    itlb := ⟨0x10000, 65536, 0, pa / 65536 * 65536, true, true, true, false, false⟩ :: k.itlb }
  { s with
    booted := true
    recovery := false
    cur := Thread.blank
    out := false
    turn := 0
    seq := uid + 4
    mem := mem
    l2 := s.l2.filter fun l => l.line != line
    eccBusy := s.eccBusy.filter fun l => l != line
    ecc := s.ecc.filter fun e => e.1 != line
    threads := t :: (s.threads.filter fun t => !t.ending).map fun t => { t with stall := true }
    teams := team :: s.teams
    clusters := ⟨uid + 2, uid + 3, 0, [(0, uid + 1)], false⟩ :: s.clusters
    grids := grid :: s.grids
    agenda := s.agenda.map fun e => (max e.1 (s.now + 1), e.2) }

end Sys2Proof.Machine
end

