-- ==== Sys2Proof/Machine/Step.lean ====
section
/-! DEFINITION. One step of the package, and the placing of one word for the next step. -/
namespace Sys2Proof.Machine

/-- One step: a due event, or one turn of one thread (log 2). -/
noncomputable def step (s : State) : Host.Outcome State Fault Refusal := stepWith exec (runWord exec) s

/-- `s` with a word placed where the next step fetches and runs it (log 33). Every word has 32 bits (07 R172). -/
noncomputable def State.withFetchWord (s : State) (nbits w : Nat) : State :=
  placeWord s (BitVec.ofNat 32 (w % 2 ^ nbits))

end Sys2Proof.Machine
end

