-- ==== Sys2Proof/WellFormed.lean ====
section
/-! DEFINITION. Which instructions have a word in a mode: the checks of 07 R184 on the instruction as syntax. -/
namespace Sys2Proof

/-- An instruction that a word encodes (07 R172), as against an operation or event of the package. -/
def Instr.isWord : Instr → Bool
  | .nop | .exit | .lexit | .yield | .sys | .brk | .sigrst | .fetchb | .win _ | .wait _ _ _ _ | .waitc | .launch _ _ |
    .srd _ _ | .swr _ _ | .jr _ | .jlr _ _ | .pinon | .pinoff | .sadd _ _ _ | .ssub _ _ _ | .smul _ _ _ | .smulh _ _ _ |
    .smulhu _ _ _ | .sdiv _ _ _ | .sdivu _ _ _ | .srem _ _ _ | .sremu _ _ _ | .sand _ _ _ | .sor _ _ _ | .sxor _ _ _ |
    .sandn _ _ _ | .sshl _ _ _ | .sshr _ _ _ | .ssra _ _ _ | .smin _ _ _ | .smax _ _ _ | .sminu _ _ _ | .smaxu _ _ _ |
    .sclz _ _ | .sctz _ _ | .spopc _ _ | .sbrev _ _ | .sbfe _ _ _ | .sbfeu _ _ _ | .sbfi _ _ _ | .scmp _ _ | .ssel _ _ _ |
    .saddi _ _ _ | .sandi _ _ _ | .sori _ _ _ | .sxori _ _ _ | .sshli _ _ _ | .sshri _ _ _ | .ssrai _ _ _ | .sroti _ _ _ |
    .scmpi _ _ | .slui _ _ | .slhi _ _ | .br _ _ | .bl _ _ | .sldb _ _ _ | .sldh _ _ _ | .sldw _ _ _ | .sldd _ _ _ |
    .sstb _ _ _ | .ssth _ _ _ | .sstw _ _ _ | .sstd _ _ _ | .vldb _ _ _ | .vldh _ _ _ | .vldw _ _ _ | .vldd _ _ _ |
    .vldq _ _ _ | .vstb _ _ _ | .vsth _ _ _ | .vstw _ _ _ | .vstd _ _ _ | .vstq _ _ _ | .atomAddW _ _ | .atomAddD _ _ |
    .atomMinW _ _ | .atomMaxW _ _ | .atomMinuW _ _ | .atomMaxuW _ _ | .atomMinD _ _ | .atomMaxD _ _ | .atomAndW _ _ |
    .atomOrW _ _ | .atomXorW _ _ | .atomAndD _ _ | .atomOrD _ _ | .atomXorD _ _ | .atomSwapW _ _ | .atomSwapD _ _ |
    .atomCasW _ _ | .atomCasD _ _ | .atomFaddF32 _ _ | .atomFaddF64 _ _ | .atomFminF32 _ _ | .atomFmaxF32 _ _ | .spldb _ _ _ |
    .spldh _ _ _ | .spldw _ _ _ | .spldd _ _ _ | .spldq _ _ _ | .spstb _ _ _ | .spsth _ _ _ | .spstw _ _ _ | .spstd _ _ _ |
    .spstq _ _ _ | .spatomAdd _ _ _ | .spatomMin _ _ _ | .spatomMax _ _ _ | .spatomSwap _ _ _ | .spatomCas _ _ _ |
    .spatomFadd _ _ _ | .fenceCore | .fencePkg | .fenceSpan | .cflush _ _ | .cinv _ _ | .pref _ _ | .icinv _ _ | .rput _ _ _ |
    .rputf _ _ _ | .rget _ _ _ | .ratom _ _ _ | .satomAdd _ _ | .satomSwap _ _ | .satomCas _ _ _ | .satomMin _ _ |
    .satomMax _ _ | .satomOr _ _ | .satomAnd _ _ | .vadd _ _ _ | .vsub _ _ _ | .vmul _ _ _ | .vmulh _ _ _ | .vmulhu _ _ _ |
    .vmad _ _ _ | .vand _ _ _ | .vor _ _ _ | .vxor _ _ _ | .vandn _ _ _ | .vshl _ _ _ | .vshr _ _ _ | .vsra _ _ _ |
    .vmin _ _ _ | .vminu _ _ _ | .vmax _ _ _ | .vmaxu _ _ _ | .vabs _ _ | .vneg _ _ | .vclz _ _ | .vpopc _ _ | .vbrev _ _ |
    .vbfe _ _ _ | .vbfeu _ _ _ | .vbfi _ _ _ | .vadd64 _ _ _ | .vsub64 _ _ _ | .vmul64 _ _ _ | .vshl64 _ _ _ | .vshr64 _ _ _ |
    .vsra64 _ _ _ | .vdp4 _ _ _ | .vdp4u _ _ _ | .vmov _ _ | .sigchk _ | .vmovi _ _ | .vfadd _ _ _ | .vfsub _ _ _ |
    .vfmul _ _ _ | .vfma _ _ _ | .vfms _ _ _ | .vfnma _ _ _ | .vfmin _ _ _ | .vfmax _ _ _ | .vfabs _ _ | .vfneg _ _ |
    .vfcpsgn _ _ _ | .vfscale _ _ _ | .vfrndn _ _ | .vfrndz _ _ | .vfrndu _ _ | .vfrndd _ _ | .vfdiv _ _ _ | .vfsqrt _ _ |
    .vfrcp _ _ | .vfrsq _ _ | .vdadd _ _ _ | .vdsub _ _ _ | .vdmul _ _ _ | .vdfma _ _ _ | .vdfms _ _ _ | .vdfnma _ _ _ |
    .vdmin _ _ _ | .vdmax _ _ _ | .vdabs _ _ | .vdneg _ _ | .vdscale _ _ _ | .vdrndn _ _ | .vdrndz _ _ | .vddiv _ _ _ |
    .vdsqrt _ _ | .vdrcp _ _ | .vdrsq _ _ | .vhadd _ _ _ _ | .vhsub _ _ _ _ | .vhmul _ _ _ _ | .vhfma _ _ _ _ |
    .vhmin _ _ _ _ | .vhmax _ _ _ _ | .vhdot2 _ _ _ _ | .vcvtF64F32 _ _ | .vcvtF32F64 _ _ | .vcvtBf16F32 _ _ _ |
    .vcvtF32Bf16 _ _ | .vcvtF16F32 _ _ _ | .vcvtF32F16 _ _ | .vcvtE4m3F32 _ _ _ | .vcvtE5m2F32 _ _ _ | .vcvtF32E4m3 _ _ |
    .vcvtF32E5m2 _ _ | .vcvtS32F32 _ _ | .vcvtU32F32 _ _ | .vcvtF32S32 _ _ | .vcvtF32U32 _ _ | .vcvtS64F64 _ _ |
    .vcvtF64S64 _ _ | .vcvtS32F64 _ _ | .vcvtF64S32 _ _ | .vfclass _ _ | .vdclass _ _ | .vexp2 _ _ | .vlog2 _ _ | .vsin _ _ |
    .vcos _ _ | .teval _ _ | .tld _ _ | .vicmpEq _ _ _ | .vicmpNe _ _ _ | .vicmpLt _ _ _ | .vicmpLe _ _ _ | .vicmpLtu _ _ _ |
    .vicmpLeu _ _ _ | .vicmp64Eq _ _ _ | .vicmp64Lt _ _ _ | .vicmp64Ltu _ _ _ | .vfcmpEq _ _ _ | .vfcmpNe _ _ _ |
    .vfcmpLt _ _ _ | .vfcmpLe _ _ _ | .vfcmpUn _ _ _ | .vdcmpEq _ _ _ | .vdcmpNe _ _ _ | .vdcmpLt _ _ _ | .vdcmpLe _ _ _ |
    .vdcmpUn _ _ _ | .pand _ _ _ | .por _ _ _ | .pxor _ _ _ | .pandn _ _ _ | .pnot _ _ | .pset _ _ | .psave _ _ | .prest _ _ |
    .ballot _ _ | .mandp _ | .mandnp _ | .msetp _ | .pcnt _ _ | .vperm _ _ _ | .vshflx _ _ _ | .vshflu _ _ _ | .vshfld _ _ _ |
    .vbcast _ _ _ | .vredAdd _ _ | .vredMin _ _ | .vredMax _ _ | .vredAnd _ _ | .vredOr _ _ | .vredXor _ _ | .vfredAdd _ _ |
    .vscanAdd _ _ | .vlane _ | .cpy _ _ _ _ | .swinit _ _ | .bara _ _ _ | .bard _ _ | .wmrd _ _ | .wmclr _ | .wmabort _ |
    .mfmt _ | .mma _ _ _ | .mmaL _ _ _ | .mzero _ | .acrd _ _ _ _ | .acwr _ _ _ _ | .tbw _ _ _ | .tbr _ _ _ | .mpert _ _ |
    .msync | .seqgo _ | .vsel _ _ _ _ | .vpmov _ _ _ | .uisend _ _ | .uisendw _ _ | .uiret | .uiack _ _ | .uipoll _ |
    .trapret | .srdp _ _ | .swrp _ _ | .lsel _ | .lrdv _ _ | .lwrv _ _ | .lrdp _ _ | .lwrp _ _ | .tlbinv _ _ | .tlbsync |
    .freplay | .fdrop | .halt _ => true
  | .ctxcmdLoad _ | .ctxcmdPark _ | .ctxcmdForget _ | .evcmdEvict _ | .evcmdEnd _ | .fqcmdReplay _ | .fqcmdDrop _ |
    .pgcmdGo _ | .pgcmdSweep _ | .tlbicmdWrite _ | .tlbicmdRead _ | .cstateWriteAlive _ | .cstateWriteFree _ |
    .cstateWriteDead _ | .lportLaunch _ _ _ | .lportGraph _ _ _ | .uiportStore _ _ _ _ | .measExtend _ _ | .raspop |
    .attcmdGo _ | .attestationReportDone | .registerWrite _ _ _ | .rds _ | .rdx _ | .upg _ | .wrf _ | .atf _ | .ntr _ |
    .prf _ | .wbk _ | .cancel _ _ | .recallInv _ | .recallDown _ | .recallCopy _ | .recallDwb _ | .recallAnswer _ |
    .homeAnswer _ | .retry _ | .retryResend _ | .retryMigrating _ | .migrationDone _ | .rputDelivery _ | .rputfDelivery _ |
    .rgetDelivery _ | .ratomDelivery _ | .epochClose _ _ _ _ | .epochCloseAck _ | .remoteAck _ _ | .remoteAnswer _ |
    .uiArrival _ | .uiSendAnswer _ _ | .uiHandlerEntry _ | .heartbeatSend | .heartbeat _ | .heartbeatTimeout _ |
    .suspectReport _ _ _ | .monitorDeclare _ | .deathDeclaration _ _ | .recoveryRegionScan _ | .linkCrcError _ | .linkDown _ |
    .invalidation _ | .invalidationAck _ | .pageWalkComplete _ | .requestTimeout _ | .storeBufferTimeout _ _ |
    .storeBufferAnswer _ _ _ | .l2WritePerform _ | .pinExpiry _ | .waitEvaluate _ | .waitTimeout _ | .baraWaitEnd _ |
    .fenceComplete _ | .sequencerGrant _ | .launchAccept _ | .afterConditionRead _ | .dispatchPlace | .dispatchRetry |
    .activeSetSwap _ | .clusterEvict _ | .evictRetry _ | .wakeEvaluate _ | .gridComplete _ | .gridCompletionActions _ |
    .trapEntry _ | .fqRetry _ | .copyUnitLand _ | .copyLineWritePerformed _ _ | .copyLandingsComplete _ |
    .copyStampPerformed _ | .matrixOpComplete _ | .migrationStart _ | .migrationCopyPage _ | .migrationFinish _ |
    .migWindowBoundary | .eccRetry _ | .scrubPass _ | .powerAdjust | .hotLimit | .ageRecompute _ _ _ | .infieldTestDrain _ |
    .infieldTestStart _ | .infieldTestEnd _ | .infieldTestTimeout _ | .reset _ | .l2LoadAnswer _ _ |
    .memberScratchpadAccess _ | .ctxcmdComplete | .hotLimitClear | .leaseExpiry _ => false

/-- Only scalars and immediates exist in a stream (07 R181); the p of CPY is a subfield there (07 R179). -/
def Use.inStream (u : Use) : Bool :=
  match u.o with
  | .v .. | .frozen _ | .run5 (.v _) => false
  | .p r => r.val == 0
  | .s .. | .run5 (.s _) => true

/-- SWR and SWRP name a register that may be written (07 R184 step 1, 09 R239, 15 R345). -/
def Instr.nameable : Instr → Bool
  | .swr r _ => r.writable
  | .swrp r _ => r.writable
  | _ => true

/-- An instruction that a word encodes in a mode: a register that may be named, pairs and quads aligned, runs inside their
class, legal in the mode
(07 R184 steps 1 and 4 to 8). -/
def Instr.wf (m : Mode) (i : Instr) : Bool :=
  i.isWord && i.nameable && i.aligned && i.inRuns && (i.illegalIn m).isNone && (m != .seq || i.uses.all Use.inStream)

end Sys2Proof
end

