-- ==== Sys2Proof/Safety.lean ====
section
/-! DEFINITION. The terms in which statements speak of the package: when a word may issue, what every word does beside its
own effect, registers as the spec sees them, safe states and safe steps. -/
namespace Sys2Proof.Machine

/-! ### States and steps -/

/-- Between steps every thread is in its place: none is checked out for issue. -/
def State.settled (s : State) : Prop := s.out = false ∧ s.cur = Thread.blank

/-- The step goes on: the machine has a next state. -/
def State.goesOn (s : State) : Prop := ∃ t, step s = .next t

/-- The package has booted and is not in recovery: messages and events have their effect (17 R370). -/
def State.up (s : State) : Prop := s.booted = true ∧ s.recovery = false

/-! ### What every step keeps -/

/-- The bytes of an engine's tile buffers and accumulators are in canonical form. -/
def Engine.wf (e : Engine) : Prop := Mem.wf e.acc = true ∧ Mem.wf e.tiles = true
/-- A team's scratchpad is in canonical form, as is the matrix state that eviction saved; its watermarks are 16 (04 R103). -/
def Team.wf (m : Team) : Prop := Mem.wf m.scratch = true ∧ m.marks.length = 16 ∧ ∀ e, m.engine = some e → e.wf
/-- A context entry has 64 counts and data words (13 R308), 24 exception counters (08 R210) and a copy sequence number of each core
(04 R98). -/
def Ctx.wf (c : Ctx) : Prop :=
  c.ui.cnt.length = 64 ∧ c.ui.data.length = 64 ∧ c.fx.cnt.length = 24 ∧ c.cpyseq.length = 320
/-- The teams here and in save slots. -/
def State.everyTeam (s : State) : List Team := s.teams ++ s.saved.flatMap SavedCluster.teams
/-- The groups and streams here and in save slots. -/
def State.everyThread (s : State) : List Thread := s.threads ++ s.saved.flatMap SavedCluster.threads
/-- The clusters here and in save slots. -/
def State.everyCluster (s : State) : List Cluster := s.clusters ++ s.saved.map SavedCluster.cluster
/-- Numbers that no two things share, and that none yet to come will have. -/
def State.numbers (s : State) (l : List Nat) : Prop := l.Nodup ∧ ∀ n ∈ l, n < s.seq

/-- What holds of the machine between steps: memories in canonical form, line metadata and page records in the order of their
keys, one thread, team and cluster of each number, and registers in the numbers that the spec gives. -/
structure State.Inv (s : State) : Prop where
  mem : Mem.wf s.mem = true
  meta_ : (s.meta_.map Prod.fst).Pairwise (· < ·)
  pages : (s.pages.map Prod.fst).Pairwise (· < ·)
  teams : ∀ m ∈ s.everyTeam, m.wf
  engines : ∀ k ∈ s.cores, k.engine.wf
  threads : ∀ t ∈ s.everyThread, t.sregs.length = 32
  uids : s.numbers (s.everyThread.map Thread.uid)
  teamIds : s.numbers (s.everyTeam.map Team.id)
  clusterIds : s.numbers (s.everyCluster.map Cluster.id)
  saved : ∀ c ∈ s.saved, c.cluster.id = c.id
  contexts : s.ctxs.length = 64 ∧ ∀ c ∈ s.ctxs, c.wf
  cores : s.cores.length = 320
  registers : s.cstate.length = 256 ∧ s.celltab.length = 1024 ∧ s.ppmask.length = 60 ∧ s.meas.length = 8 ∧ s.ages.length = 6
    ∧ s.links.length = 24

/-! ### Issue -/

/-- An instruction word may issue for the thread that is checked out: it is legal in the thread's mode (07 R184 steps 7
and 8), names no register beyond the allotment (step 9), and waits for no load of the operand log (10 R246). -/
def ready (i : Instr) (s : State) : Prop :=
  modeReject i.modes s.cur.decodeMode = none ∧ i.uses.any (Use.beyond s.cur) = false ∧ s.cur.interlocked i.uses = false

/-- What every word that issues does to its thread beside its own effect `r`: the PC moves to the next word, the word
enters SIG (09 R242), and nothing is waited for; the model notes the tick of issue. -/
def retire (s r : State) : State :=
  { r with cur := { r.cur with
    pc := s.cur.pc + 4, sig := crcWord r.cur.sig s.iw, wait := .none, stall := false, issuedAt := some s.now } }
/-- What a taken branch does to its thread beside its link: the PC is the target, and SIG starts afresh (09 R242); a word
fetched before is fetched again (03 R90). -/
def branch (s r : State) (target : Dword) : State :=
  { r with cur := { r.cur with
    pc := target, sig := 0xFFFFFFFF, fetched := none, wait := .none, stall := false, issuedAt := some s.now } }
/-- A thread that cannot go on at its word: nothing changes but the model's mark (log 2). -/
def hold (s : State) : State := { s with cur := { s.cur with stall := true } }
/-- A thread at a blocking point: the PC stays and the wake condition is kept (14 R329). -/
def block (s : State) (w : Wait) : State := { s with cur := { s.cur with wait := w, stall := true } }
/-- No lane of an older load, store or atomic of the thread is unperformed, so that a trap can be taken at once (15 R338). -/
def noneOlder (s : State) : Prop := (s.cur.liveLog.any fun e => e.unperformed != 0) = false

/-! ### Registers -/

/-- Scalar d is a word of the active mask: s29, s30 or s31 of a group in user mode (06 R155). -/
def masks (t : Thread) (d : SReg) : Bool := t.mode == .user && !t.stream && decide (29 ≤ d.val)
/-- A scalar written: zero with P = 1 for a poisoned value (08 R207); a write to the mask keeps only live lanes (06 R155). -/
def writeS (t : Thread) (d : SReg) (x : SVal) : Thread :=
  let u := t.putReg d.val (if x.p then ⟨0, true⟩ else x)
  if masks t d then u.setMask u.mask else u
/-- A thread's registers have the numbers that the spec gives them (02 R45 to R47). -/
def Thread.shaped (t : Thread) : Prop :=
  t.sregs.length = 32 ∧ t.banked.length = 16 ∧ t.preds.length = 32 ∧ t.vregs.length = t.allot ∧ ∀ v ∈ t.vregs, v.length = 96
/-- Lane L is active: its bit of the mask is set and the lane was launched (06 R154, R155). -/
def Thread.activeLane (t : Thread) (L : Nat) : Bool := t.mask.getLsbD L && t.launched.getLsbD L

end Sys2Proof.Machine
end

