-- ==== Sys2Proof/Certificates/Slice0/Obligations.lean ====
section
/-! DEFINITION. The statements for the provers: what the rules of the spec say of the instructions, operations and events of
the N320, of its encoding and of its steps. Each docstring names the rules. -/
open Sys2Proof Sys2Proof.Machine

/-! ### Scalars (09 R214 to R222) -/

/-- 09 R215, R216, R217: the scalar instructions of two sources write the result of the rule, poisoned when a source is
poisoned (R214), and change nothing else; a poisoned value for the active mask is another statement. -/
def Obligations.ScalarTwoSource : Prop :=
  ∀ (s : State) (d a b : SReg),
    let x := (s.cur.getS a).v
    let y := (s.cur.getS b).v
    let p := (s.cur.getS a).p || (s.cur.getS b).p
    let n := (y.extractLsb' 0 6).toNat
    let w := min (y.extractLsb' 8 7).toNat 64
    let mask : Dword := if w = 64 then 0xFFFFFFFFFFFFFFFF else ((1 : Dword) <<< w) - 1
    let field := (x >>> n) &&& mask
    ∀ row ∈ ([(.sadd d a b, x + y), (.ssub d a b, x - y), (.smul d a b, x * y),
        (.smulh d a b, (x.signExtend 128 * y.signExtend 128).extractLsb' 64 64),
        (.smulhu d a b, (x.zeroExtend 128 * y.zeroExtend 128).extractLsb' 64 64),
        (.sdiv d a b, if y = 0 then 0xFFFFFFFFFFFFFFFF else x.sdiv y),
        (.sdivu d a b, if y = 0 then 0xFFFFFFFFFFFFFFFF else x / y),
        (.srem d a b, if y = 0 then x else x - y * x.sdiv y),
        (.sremu d a b, if y = 0 then x else x - y * (x / y)),
        (.sand d a b, x &&& y), (.sor d a b, x ||| y), (.sxor d a b, x ^^^ y), (.sandn d a b, x &&& ~~~y),
        (.sshl d a b, x <<< n), (.sshr d a b, x >>> n), (.ssra d a b, x.sshiftRight n),
        (.smin d a b, if x.toInt < y.toInt then x else y), (.smax d a b, if x.toInt < y.toInt then y else x),
        (.sminu d a b, if x < y then x else y), (.smaxu d a b, if x < y then y else x),
        (.sbfeu d a b, field), (.sbfe d a b, if w = 0 then 0 else (field <<< (64 - w)).sshiftRight (64 - w))] :
        List (Instr × Dword)),
      ready row.1 s → (masks s.cur d = true → p = false) →
        exec row.1 s = .next (retire s { s with cur := writeS s.cur d ⟨row.2, p⟩ })

/-- 09 R215, R217, R219, R220: the scalar instructions of one source and an immediate, SBFI and SLHI, which read D, and
SSEL, which reads only the operand it selects. -/
def Obligations.ScalarOneSource : Prop :=
  ∀ (s : State) (d a b : SReg) (i : BitVec 13) (u : BitVec 20) (k : Fin 64),
    let x := s.cur.getS a
    let y := s.cur.getS b
    let z := s.cur.getS d
    let n := (y.v.extractLsb' 0 6).toNat
    let w := min (y.v.extractLsb' 8 7).toNat 64
    let mask : Dword := if w = 64 then 0xFFFFFFFFFFFFFFFF else ((1 : Dword) <<< w) - 1
    ∀ row ∈ ([(.sclz d a, x.v.clz, x.p), (.sctz d a, x.v.ctz, x.p), (.spopc d a, x.v.cpop, x.p),
        (.sbrev d a, x.v.reverse, x.p),
        (.saddi d a i, x.v + i.signExtend 64, x.p), (.sandi d a i, x.v &&& i.signExtend 64, x.p),
        (.sori d a i, x.v ||| i.signExtend 64, x.p), (.sxori d a i, x.v ^^^ i.signExtend 64, x.p),
        (.sshli d a k, x.v <<< k.val, x.p), (.sshri d a k, x.v >>> k.val, x.p),
        (.ssrai d a k, x.v.sshiftRight k.val, x.p), (.sroti d a k, x.v.rotateRight k.val, x.p),
        (.slui d u, u.signExtend 64, false), (.slhi d u, (z.v <<< 20) ||| u.zeroExtend 64, z.p),
        (.sbfi d a b, (z.v &&& ~~~(mask <<< n)) ||| ((x.v &&& mask) <<< n), x.p || y.p || z.p),
        (.ssel d a b, if s.cur.cc.z then x.v else y.v, if s.cur.cc.z then x.p else y.p)] :
        List (Instr × Dword × Bool)),
      ready row.1 s → (masks s.cur d = true → row.2.2 = false) →
        exec row.1 s = .next (retire s { s with cur := writeS s.cur d ⟨row.2.1, row.2.2⟩ })

/-- 09 R214, 06 R155, 09 R219, R220, 10 R261: a poisoned result of scalar arithmetic and logic, of an immediate form, SLHI, SSEL or
PCNT for a word of the active mask is POISON_CONSUMED, and nothing is written: taken at once when no older lane is unperformed,
else the group waits for it (15 R338). -/
def Obligations.PoisonedMaskTraps : Prop :=
  ∀ (s : State) (d a b : SReg) (q : PReg) (i : BitVec 13) (u : BitVec 20) (k : Fin 64), masks s.cur d = true →
    let x := (s.cur.getS a).p
    let y := (s.cur.getS b).p
    let z := (s.cur.getS d).p
    let n := (s.cur.getP q).p &&& s.cur.mask != 0
    ∀ row ∈ ([(.sadd d a b, x || y), (.ssub d a b, x || y), (.smul d a b, x || y), (.smulh d a b, x || y), (.smulhu d a b, x || y),
        (.sdiv d a b, x || y), (.sdivu d a b, x || y), (.srem d a b, x || y), (.sremu d a b, x || y), (.sand d a b, x || y),
        (.sor d a b, x || y), (.sxor d a b, x || y), (.sandn d a b, x || y), (.sshl d a b, x || y), (.sshr d a b, x || y),
        (.ssra d a b, x || y), (.smin d a b, x || y), (.smax d a b, x || y), (.sminu d a b, x || y), (.smaxu d a b, x || y),
        (.sbfeu d a b, x || y), (.sbfe d a b, x || y), (.sbfi d a b, x || y || z), (.ssel d a b, if s.cur.cc.z then x else y),
        (.sclz d a, x), (.sctz d a, x), (.spopc d a, x), (.sbrev d a, x), (.saddi d a i, x), (.sandi d a i, x), (.sori d a i, x),
        (.sxori d a i, x), (.sshli d a k, x), (.sshri d a k, x), (.ssrai d a k, x), (.sroti d a k, x), (.slhi d u, z),
        (.pcnt d q, n)] : List (Instr × Bool)),
      ready row.1 s → row.2 = true →
        (noneOlder s → exec row.1 s = .next (takeTrap s ⟨POISON_CONSUMED, 0, 0⟩ s.cur.pc s.iw none))
        ∧ (¬ noneOlder s → exec row.1 s = .next (hold s))

/-- 09 R218 with 07 R186: SCMP and SCMPI change Z, N, C, V alone, and the conditions then order A and Y: LT, GE, LE and GT
as signed, LTU, GEU, LEU and GTU as unsigned. A poisoned operand is POISON_CONSUMED, and CC is unchanged. -/
def Obligations.CompareOrders : Prop :=
  ∀ (s : State) (a b : SReg) (i : BitVec 13),
    ∀ row ∈ ([(.scmp a b, s.cur.getS b), (.scmpi a i, ⟨i.signExtend 64, false⟩)] : List (Instr × SVal)),
      ready row.1 s →
      let x := s.cur.getS a
      let y := row.2
      if x.p || y.p then noneOlder s → exec row.1 s = .next (takeTrap s ⟨POISON_CONSUMED, 0, 0⟩ s.cur.pc s.iw none)
      else ∃ c : CC, exec row.1 s = .next (retire s { s with cur := { s.cur with cc := c } })
        ∧ c.mz = s.cur.cc.mz ∧ c.mf = s.cur.cc.mf ∧ c.tmo = s.cur.cc.tmo ∧ c.nl = s.cur.cc.nl
        ∧ (c.holds .eq = decide (x.v = y.v)) ∧ (c.holds .ne = decide (x.v ≠ y.v))
        ∧ (c.holds .lt = x.v.slt y.v) ∧ (c.holds .ge = y.v.sle x.v) ∧ (c.holds .le = x.v.sle y.v) ∧ (c.holds .gt = y.v.slt x.v)
        ∧ (c.holds .ltu = x.v.ult y.v) ∧ (c.holds .geu = y.v.ule x.v) ∧ (c.holds .leu = x.v.ule y.v)
        ∧ (c.holds .gtu = y.v.ult x.v)

/-- 02 R47, 09 R214, 15 R341: the registers of a thread. A scalar written, of no mask, reads what was written, every other
name reads what it read, and nothing else of the thread changes but its bank: in supervisor mode the names s0 to s15
reach the banked registers and leave s0 to s15 of user mode alone. -/
def Obligations.RegisterFile : Prop :=
  ∀ (t : Thread) (d r : SReg) (x : SVal), t.shaped → masks t d = false →
    ((writeS t d x).getS r = if r = d then (if x.p then ⟨0, true⟩ else x) else t.getS r)
    ∧ { writeS t d x with sregs := t.sregs, banked := t.banked } = t
    ∧ (t.mode = .sup → d.val < 16 → (writeS t d x).sregs = t.sregs)
    ∧ ((t.mode ≠ .sup ∨ 16 ≤ d.val) → (writeS t d x).banked = t.banked)

/-- 06 R155, R156: a write of an unpoisoned value to a word of the mask is a mask write: only live lanes stay, of the other
two words too, MZ says whether none is left, MF whether all are, and s0 to s28 and the other flags stay. -/
def Obligations.MaskWrite : Prop :=
  ∀ (t : Thread) (d : SReg) (v : Dword), t.shaped → masks t d = true →
    let u := writeS t d ⟨v, false⟩
    (∀ k L : Nat, k < 3 → L < 32 →
      u.mask.getLsbD (32 * k + L) =
        ((if d.val = 29 + k then v.getLsbD L else t.mask.getLsbD (32 * k + L)) && t.live.getLsbD (32 * k + L)))
    ∧ u.cc = { t.cc with mz := u.mask == 0, mf := u.mask == t.live }
    ∧ (∀ r : SReg, r.val < 29 → u.getS r = t.getS r)
    ∧ { u with sregs := t.sregs, cc := t.cc } = t

/-- 09 R221, R222, 07 R186, 03 R90, 09 R242: a branch is taken when its condition holds, to the word its offset names from
the branch itself, with the link in s28 for BL; a jump goes to the address in its register, with the link in d for JLR;
SIG starts afresh at the target. A branch not taken only advances. -/
def Obligations.BranchesAndJumps : Prop :=
  ∀ (s : State) (c : Cond) (o : BitVec 22) (d a : SReg),
    let x := s.cur.getS a
    let target := s.cur.pc + 4 * o.signExtend 64
    let link : SVal := ⟨s.cur.pc + 4, false⟩
    (ready (.br c o) s → exec (.br c o) s = .next (if s.cur.cc.holds c then branch s s target else retire s s))
    ∧ (ready (.bl c o) s → exec (.bl c o) s =
        .next (if s.cur.cc.holds c then branch s { s with cur := writeS s.cur 28 link } target else retire s s))
    ∧ (ready (.jr a) s → x.p = false → x.v.extractLsb' 0 2 = 0 → exec (.jr a) s = .next (branch s s x.v))
    ∧ (ready (.jlr d a) s → x.p = false → x.v.extractLsb' 0 2 = 0 →
        exec (.jlr d a) s = .next (branch s { s with cur := writeS s.cur d link } x.v))
    ∧ (∀ j ∈ ([.jr a, .jlr d a] : List Instr), ready j s → noneOlder s →
        (x.p = true → exec j s = .next (takeTrap s ⟨POISON_CONSUMED, 0, 0⟩ s.cur.pc s.iw none))
        ∧ (x.p = false → x.v.extractLsb' 0 2 ≠ 0 → exec j s = .next (takeTrap s ⟨MISALIGNED, 0, x.v⟩ s.cur.pc s.iw none)))

/-! ### Control and traps (09 R226 to R243, 15 R336 to R347) -/

/-- 09 R226, R228, R230, R231, R241, R242: the words that only steer their own thread. NOP only advances; YIELD leaves the
active set and is ready at once; SIGRST starts SIG afresh; FETCHB, with no ICINV of the thread under way, discards what was
fetched; WIN n sets the window base to 16 n; LEXIT takes the active lanes from the live set, while some lane stays live,
and clears the mask.
09 R238: PINON pins the team for 100,000 ticks, unless the team is pinned, or its last pin ended less than 100,000
ticks ago; PINOFF ends the pin; and each leaves every other team as it was. -/
def Obligations.ControlWords : Prop :=
  (∀ (s : State) (n : Fin 16),
      let t := s.cur
      let live := t.live &&& ~~~t.mask
      (ready .nop s → exec .nop s = .next (retire s s))
      ∧ (ready .yield s → exec .yield s = .next { retire s s with cur := { (retire s s).cur with
          wait := .yield, active := false, readyAt := s.now } })
      ∧ (ready .sigrst s → exec .sigrst s = .next { retire s s with cur := { (retire s s).cur with sig := 0xFFFFFFFF } })
      ∧ (ready .fetchb s → (∀ e ∈ t.liveLog, e.op = .icinv → e.unperformed = 0) →
          exec .fetchb s = .next (retire s { s with cur := { t with fetched := none } }))
      ∧ (ready (.win n) s → exec (.win n) s = .next (retire s { s with cur := { t with wbase := 16 * n.val } }))
      ∧ (ready .lexit s → live ≠ 0 → exec .lexit s = .next (retire s { s with cur := { t with
          live := live
          sregs := setAt (setAt (setAt t.sregs 29 SVal.zero) 30 SVal.zero) 31 SVal.zero
          cc := { t.cc with mz := true, mf := false } } })))
  ∧ (∀ (s : State) (m : Team), s.team? s.cur.team = some m → (∀ x ∈ s.teams, x.id = m.id → x = m) →
      (ready .pinon s → ∃ t, exec .pinon s = .next t ∧ (∀ u, u ≠ m.id → t.team? u = s.team? u) ∧ t.cur = (retire s s).cur ∧
        t.team? m.id = some (if m.pinEnd = none ∧ (∀ e, m.lastPinEnd = some e → e + 100000 ≤ s.now)
          then { m with pinEnd := some (s.now + 100000) } else m))
      ∧ (ready .pinoff s → ∃ t, exec .pinoff s = .next t ∧ (∀ u, u ≠ m.id → t.team? u = s.team? u) ∧ t.cur = (retire s s).cur ∧
        t.team? m.id = some (if m.pinEnd = none then m else { m with pinEnd := none, lastPinEnd := some s.now })))

/-- 09 R227, R228: EXIT, and a LEXIT that leaves no lane live, with nothing of the operand log unperformed: the thread leaves
its core, and no thread of its number is left. -/
def Obligations.ExitLeaves : Prop :=
  ∀ (s : State) (i : Instr), (i = .exit ∨ (i = .lexit ∧ s.cur.live &&& ~~~s.cur.mask = 0)) → ready i s → s.out = true →
    noneOlder s →
    ∃ t, exec i s = .next t ∧ t.out = false ∧ (∀ u ∈ t.threads, u.uid ≠ s.cur.uid)
      ∧ (∀ u ∈ s.threads, u.uid ≠ s.cur.uid → ∃ v ∈ t.threads, v = { u with stall := v.stall })

/-- 15 R336, R341, 09 R229: SYS, with a lane active, and BRK, in a group in user mode whose context has a trap vector, enter
supervisor mode at TRAPVEC: the trap registers hold the code, the address and the mask, SIG is saved and starts afresh, and
nothing else changes but that a group which stands in a queue of LAUNCHes or SEQGOs leaves it. SYS is taken after its word, so its
word is in the saved SIG (log 24), and TRAPPC is the next word; BRK before its own. With no lane active SYS only advances. 15
R337, R339, R341, R350: a logged trap, of an operand log entry of a group in user mode, is taken with LOG set, TRAPNPC the PC at
which the group goes on, FLTPEND the lanes that are not performed, and the faulting word in FLTINSN; where EXTMASK has the bit of
its code it waits for external service instead: the entry is held, the PC and the registers stay, and a record of the fault queue
is appended, or waits to be: code and detail, core, team slot and group; address; PC; and the grid's handle. -/
def Obligations.SysAndBreak : Prop :=
  (∀ (s : State), s.cur.stream = false → s.cur.mode = .user → (s.ctxOf s.cur).trapvec ≠ 0 → noneOlder s →
    let r := leaveQueues s (s.slotOf s.cur) s.cur.core s.cur.uid
    let t := s.cur
    let entered (code : Nat) (addr pc : Dword) (sig : Word) : Thread := { t with
      trapcode := BitVec.ofNat 64 code, trapaddr := addr, trappc := pc
      trapmask := [t.mask.extractLsb' 0 32, t.mask.extractLsb' 32 32, t.mask.extractLsb' 64 32]
      trapnpc := 0, trapLog := false, trapDrop := false, fltpend := 0, fltinsn := s.iw, trapEntry := 0
      savedSig := sig, sig := 0xFFFFFFFF, mode := .sup
      lselv := (((List.range 96).find? fun L => t.mask.getLsbD L).getD 0)
      pc := (s.ctxOf t).trapvec, fetched := none, wait := .none, stall := r.cur.stall }
    (ready .sys s → t.mask ≠ 0 →
      exec .sys s = .next { r with cur := entered 0x13 0 (t.pc + 4) (crcWord t.sig s.iw) })
    ∧ (ready .sys s → t.mask = 0 → exec .sys s = .next (retire s s))
    ∧ (ready .brk s → exec .brk s = .next { r with cur := entered 0x14 t.pc t.pc t.sig }))
  ∧ (∀ (s : State) (x : Trap) (pc : Dword) (w : Word) (e : LogEntry) (m : Team) (g : Grid), s.cur.stream = false → s.cur.mode = .user →
      s.team? s.cur.team = some m → s.grid? m.grid = some g → g.slot < s.ctxs.length → x.code < 32 → x.detail < 256 →
      let t := s.cur
      let c := s.ctx g.slot
      let r := leaveQueues s g.slot t.core t.uid
      (c.extmask.getLsbD x.code = false → c.trapvec ≠ 0 → takeTrap s x pc w (some e) = { r with cur := { t with
          trapcode := BitVec.ofNat 64 (x.code + 256 * x.detail), trapaddr := x.addr, trappc := pc
          trapmask := [t.mask.extractLsb' 0 32, t.mask.extractLsb' 32 32, t.mask.extractLsb' 64 32]
          trapnpc := t.pc, trapLog := true, trapDrop := false, fltpend := e.active &&& ~~~e.performed, fltinsn := w, trapEntry := e.id
          savedSig := t.sig, sig := 0xFFFFFFFF, mode := .sup
          lselv := (((List.range 96).find? fun L => t.mask.getLsbD L).getD 0)
          pc := c.trapvec, fetched := none, wait := .none, stall := r.cur.stall } })
      ∧ (c.extmask.getLsbD x.code = true →
        let u := takeTrap s x pc w (some e)
        u.cur = { t with log := t.log.map fun y => if y.id = e.id then { y with held := true } else y
                         wait := .replay, stall := r.cur.stall }
        ∧ (u.ctx g.slot).fqwait = c.fqwait ++ [([BitVec.ofNat 64 (x.code + 256 * x.detail + 2 ^ 37 * t.core + 2 ^ 46 * m.slot
            + 2 ^ 48 * t.gid), x.addr, pc, g.r.cblk], g.id)]
        ∧ (∃ a ∈ u.agenda, a.1 ≤ s.now ∧ a.2 = .fqRetry g.slot) ∧ (∀ k, k ≠ g.slot → u.ctx k = s.ctx k) ∧ u.mem = s.mem))

/-- 15 R339, R340, R342, 06 R158: an unlogged trap of a stream, one in supervisor mode, or one of a group without a trap
vector is a context error: the grid has ERR with the code and detail of the trap, for one in supervisor mode DOUBLE_FAULT
with its code, its threads leave at their next boundary, and the host hears of it: the EVSTAT bit of the context is set. A group
without a trap vector keeps the code, the PC and the address in its trap registers (20 R399). -/
def Obligations.ContextErrors : Prop :=
  ∀ (s : State) (x : Trap) (pc : Dword) (w : Word) (m : Team) (g : Grid),
    s.team? s.cur.team = some m → s.grid? m.grid = some g → g.stage = .running → g.err = false → s.out = true →
    x.code < 256 → x.detail < 256 → g.slot < 64 →
    (s.cur.stream = true ∨ s.cur.mode = .sup ∨ (s.ctxOf s.cur).trapvec = 0) →
    let t := takeTrap s x pc w none
    let ecode := if s.cur.stream = false ∧ s.cur.mode = .sup then 0x16 + x.code * 256 else x.code + x.detail * 256
    (∃ g', t.grid? g.id = some g' ∧ g' = { g with err := true, ecode := BitVec.ofNat 16 ecode })
    ∧ t.cur = (if s.cur.stream = false ∧ s.cur.mode ≠ .sup
        then { s.cur with ending := true, stall := t.cur.stall, trapcode := BitVec.ofNat 64 (x.code + x.detail * 256), trappc := pc
                          trapaddr := x.addr }
        else { s.cur with ending := true, stall := t.cur.stall })
    ∧ (∀ u ∈ t.threads, (s.team? u.team).map Team.grid = some m.grid → u.ending = true)
    ∧ t.evstat.getLsbD g.slot = true

/-- 15 R347: TRAPRET, with the handler's own accesses performed, goes on where the trap was: at TRAPNPC after a logged trap,
whose entry is sent again or, after FDROP, counts as performed; else at TRAPPC. The mask is TRAPMASK, as a mask write, SIG is
the one saved, and the mode is user mode. -/
def Obligations.TrapReturn : Prop :=
  ∀ (s : State), ready .trapret s → noneOlder s →
    let t := s.cur
    ∃ u : Thread, exec .trapret s = .next { s with cur := u }
      ∧ u.mode = .user ∧ u.sig = t.savedSig ∧ u.trapLog = false ∧ u.trapDrop = false ∧ u.wait = .none
      ∧ (t.trapLog = true → u.pc = t.trapnpc) ∧ (t.trapLog = false → u.pc = t.trappc ∧ u.log = t.log)
      ∧ (t.sregs.length = 32 → u.mask = maskOf t.trapmask &&& t.live)
      ∧ u.cc = { t.cc with mz := maskOf t.trapmask &&& t.live == 0, mf := maskOf t.trapmask &&& t.live == t.live }
      ∧ (∀ k, k < 29 → u.sregs[k]? = t.sregs[k]?) ∧ u.banked = t.banked ∧ u.vregs = t.vregs ∧ u.preds = t.preds
      ∧ (t.trapLog = true → ∀ e ∈ t.log, e.unperformed ≠ 0 → e.sup = false → e.id ≠ t.trapEntry →
          { e with faults := [] } ∈ u.log)
      ∧ (t.trapLog = true → t.trapDrop = true → ∀ e ∈ u.log, e.sup = false → e.id ≠ t.trapEntry)
      ∧ (t.trapLog = true → t.trapDrop = false → ∀ e ∈ t.log, e.unperformed ≠ 0 → e.sup = false →
          { e with faults := [] } ∈ u.log)

/-- 07 R184 steps 7 to 9, R176, R182, R183, 02 R46, 10 R246: what comes before any word's own meaning, for every instruction
that a word encodes, by the major (bits [31:27]) and fn (bits [26:21]) of that word. A group in user mode may run every major but
0x1F, whose words are PRIV_VIOLATION there; supervisor mode the majors 1 to 0xC, 0x13 and 0x1F and of 0 and 0x11 those that R182
lists; a stream 1 to 0xC, 0x13 and 0x1B and of 0, 0x11, 0x1C and 0x1E those that R182 lists; any other word is ILLEGAL_INSN with
detail 4. That a word of 0x1F in a stream is ILLEGAL_INSN 4 too is the model's choice (log 16). A legal word that names a vector
register n with base + n at or beyond the allotment traps with REG_WINDOW. Then a word that names a register which a load or an
atomic of the log has still to write waits, with nothing changed; for a load of the active mask every word does. No other word
waits or traps here: it is ready, as the other statements take it. -/
def Obligations.IssueChecks : Prop :=
  ∀ (i : Instr) (s : State), i.isWord = true →
    let t := s.cur
    let trap (code detail : Nat) : State := takeTrap s ⟨code, detail, t.pc⟩ t.pc s.iw none
    let major := ((encode i).extractLsb' 27 5).toNat
    let fn := ((encode i).extractLsb' 21 6).toNat
    let common := (1 ≤ major ∧ major ≤ 0xC) ∨ major = 0x13
    let legal : Prop := if t.stream then
        common ∨ major = 0x1B ∨ (major = 0 ∧ fn ∈ [0x00, 0x01, 0x03, 0x06, 0x07, 0x09, 0x0C, 0x0D, 0x0E, 0x0F])
          ∨ (major = 0x11 ∧ (fn ≤ 0x02 ∨ (0x0B ≤ fn ∧ fn ≤ 0x11))) ∨ (major = 0x1C ∧ fn ∈ [0x00, 0x01, 0x02, 0x03, 0x08, 0x09])
          ∨ (major = 0x1E ∧ fn = 0x00)
      else match t.mode with
        | .user => major ≠ 0x1F
        | .sup => common ∨ major = 0x1F ∨ (major = 0 ∧ fn ∈ [0x00, 0x05, 0x06, 0x07, 0x0C, 0x0D, 0x0E, 0x0F])
          ∨ (major = 0x11 ∧ (fn ≤ 0x06 ∨ (0x0B ≤ fn ∧ fn ≤ 0x11)))
        | .seq => True
    let vectors (u : Use) : List Nat := match u.o with
      | .v r n => (List.range n).map fun k => r.val + k
      | .run5 (.v r) => (List.range 5).map fun k => r.val + k
      | .frozen r => [r.val]
      | _ => []
    let scalars (u : Use) : List Nat := match u.o with
      | .s r n => (List.range n).map fun k => r.val + k
      | .run5 (.s r) => (List.range 5).map fun k => r.val + k
      | _ => []
    let beyond : Prop := ∃ u ∈ i.uses, ∃ n ∈ vectors u, t.allot ≤ t.wbase + n
    let locked : Prop := ∃ e ∈ t.liveLog, e.unperformed ≠ 0 ∧ match e.dst with
      | .vec b n => ∃ u ∈ i.uses, ∃ k ∈ vectors u, b ≤ t.wbase + k ∧ t.wbase + k < b + n
      | .scal q bank => masks t q = true
        ∨ ((bank = true ↔ t.mode = .sup ∧ q.val < 16) ∧ ∃ u ∈ i.uses, q.val ∈ scalars u)
      | _ => False
    (t.stream = true ∨ t.mode ≠ .seq) →
      (noneOlder s → ¬ legal → exec i s = .next (if t.stream = false ∧ t.mode = .user then trap 0x02 0 else trap 0x01 4))
      ∧ (noneOlder s → legal → beyond → exec i s = .next (trap 0x03 0))
      ∧ (legal → ¬ beyond → locked → exec i s = .next (hold s))
      ∧ (legal → ¬ beyond → ¬ locked → (∀ e ∈ t.liveLog, ∀ b n, e.dst = .vec b n → 0 < n) → ready i s)

/-- 09 R243, 16 R358: SIGCHK starts SIG afresh. With the immediate equal to the low 20 bits of the complement of SIG it only
advances; else, in a group in user mode with a trap vector, SIGNATURE_MISMATCH is taken at the next word with the computed
bits as TRAPADDR, and RASCNT counts it. -/
def Obligations.SignatureCheck : Prop :=
  ∀ (s : State) (i : BitVec 20), ready (.sigchk i) s → noneOlder s →
    let c := (s.cur.sig ^^^ 0xFFFFFFFF).extractLsb' 0 20
    (c = i → exec (.sigchk i) s = .next { retire s s with cur := { (retire s s).cur with sig := 0xFFFFFFFF } })
    ∧ (c ≠ i → s.cur.stream = false → s.cur.mode = .user → (s.ctxOf s.cur).trapvec ≠ 0 → ∃ t, exec (.sigchk i) s = .next t
        ∧ t.cur.trapcode = 0x10 ∧ t.cur.trapaddr = c.zeroExtend 64 ∧ t.cur.trappc = s.cur.pc + 4 ∧ t.cur.mode = .sup
        ∧ t.cur.savedSig = 0xFFFFFFFF ∧ t.cur.pc = (s.ctxOf s.cur).trapvec
        ∧ (t.rascnt.extractLsb' 0 8).toNat = min ((s.rascnt.extractLsb' 0 8).toNat + 1) 255)

/-! ### Special and privileged registers (09 R239, R240, 13 R308, R309, 15 R343 to R349) -/

/-- 09 R239, R240, 13 R308: what SRD reads, register by register, in the modes that may name it: into a scalar the value with
P = 0; into a vector register, in a group in user mode, the low 32 bits in the active lanes, or for LANEID the lane's own
number. In a mode that may not name it the word traps: PRIV_VIOLATION for a register of supervisor mode alone in user mode,
else ILLEGAL_INSN with detail 4. -/
def Obligations.ReadSpecial : Prop :=
  ∀ (s : State) (m : Team) (g : Grid) (cl : Cluster) (d : SReg) (v : VReg) (k : Fin 3) (n : Fin 64),
    s.team? s.cur.team = some m → s.grid? m.grid = some g → s.cluster? m.cluster = some cl →
    let t := s.cur
    let c := s.ctx g.slot
    let num (x : Nat) : Dword := BitVec.ofNat 64 x
    let wide (x : Word) : Dword := x.zeroExtend 64
    let all := (true, true, true)
    let user := (true, false, false)
    let group := (true, true, false)
    let sup := (false, true, false)
    ∀ row ∈ ([(.laneid, user, num (((List.range 96).find? fun L => t.mask.getLsbD L).getD 0)),
        (.groupid, all, num t.gid), (.memberid, all, num m.member),
        (.clx, all, num (cl.index % g.r.gx)), (.cly, all, num (cl.index / g.r.gx % g.r.gy)),
        (.clz, all, num (cl.index / (g.r.gx * g.r.gy))),
        (.gridx, all, num g.r.gx), (.gridy, all, num g.r.gy), (.gridz, all, num g.r.gz),
        (.teamshape, all, num ((g.r.gpt + 1) * 0x10000 + g.r.lastl * 0x100 + g.r.ch * 0x10 + g.r.cw)),
        (.live k, group, wide (t.live.extractLsb' (32 * k.val) 32)),
        (.coreid, all, num (spanId s * 2 ^ 48 + cellOf s s.self * 2 ^ 32 + s.self * 2 ^ 16 + t.core)),
        (.now, all, num s.now), (.lct, all, num t.lct),
        (.ccr, all, num (t.cc.z.toNat + 2 * t.cc.n.toNat + 4 * t.cc.c.toNat + 8 * t.cc.v.toNat + 16 * t.cc.mz.toNat
          + 32 * t.cc.mf.toNat + 64 * t.cc.tmo.toNat + 128 * t.cc.nl.toNat)),
        (.fpcr, user, t.rm.zeroExtend 64), (.winbase, group, num t.wbase), (.allot, group, num t.allot),
        (.sig, all, wide t.sig),
        (.pinstat, group, match m.pinEnd with | some e => num ((e - s.now) * 0x100 + 1) | none => 0),
        (.param, all, g.r.param), (.lrec, all, g.lrec), (.lhandle, all, g.r.cblk), (.cpyseq, all, c.cpyseq.getD t.core 0),
        (.launchinfo, all, num (g.r.lr.toNat * 0x100 + g.r.prio * 0x10 + g.r.eclass)),
        (.trapcode, sup, t.trapcode), (.trappc, sup, t.trappc), (.trapaddr, sup, t.trapaddr),
        (.trapmask k, sup, wide (t.trapmask.getD k.val 0)),
        (.uipend, user, c.ui.pend), (.uimask, user, c.ui.mask),
        (.uihg, user, num (c.ui.core * 0x10000 + c.ui.group * 0x100 + c.ui.team * 0x10 + c.ui.inh.toNat * 4
          + (c.ui.hg == some t.uid).toNat * 2 + c.ui.hg.isSome.toNat)),
        (.uivec, user, c.ui.vec), (.uipc, user, c.ui.pc), (.uisavm k, user, wide (c.ui.savm.getD k.val 0)),
        (.uideny, user, num (c.ui.den.toNat * 0x10000 + c.ui.drops.toNat)),
        (.uicnt n, user, (c.ui.cnt.getD n.val 0).zeroExtend 64), (.uidata n, user, wide (c.ui.data.getD n.val 0)),
        (.uirule n, user, (c.ui.rule.getD n.val 0).zeroExtend 64)] :
        List (SpecialReg × (Bool × Bool × Bool) × Dword)),
      (ready (.srd (.s d) row.1) s → modeReject row.2.1 t.decodeMode = none →
        exec (.srd (.s d) row.1) s = .next (retire s { s with cur := writeS t d ⟨row.2.2, false⟩ }))
      ∧ (ready (.srd (.v v) row.1) s → modeReject row.2.1 t.decodeMode = none → t.decodeMode = .user →
        exec (.srd (.v v) row.1) s = .next (retire s { s with cur := t.putV v fun L =>
          if row.1 = .laneid then ⟨BitVec.ofNat 32 L, false⟩ else ⟨row.2.2.truncate 32, false⟩ }))
      ∧ (ready (.srd (.s d) row.1) s → noneOlder s →
        (modeReject row.2.1 t.decodeMode = some .priv →
          exec (.srd (.s d) row.1) s = .next (takeTrap s ⟨PRIV_VIOLATION, 0, t.pc⟩ t.pc s.iw none))
        ∧ (modeReject row.2.1 t.decodeMode = some (.illegal 4) →
          exec (.srd (.s d) row.1) s = .next (takeTrap s ⟨ILLEGAL_INSN, 4, t.pc⟩ t.pc s.iw none)))

/-- 09 R239, R240: SWR of CCR, whose MZ and MF stay, of FPCR, and in supervisor mode of TRAPPC and TRAPMASK writes that
register and nothing else; a poisoned value is POISON_CONSUMED. -/
def Obligations.WriteSpecial : Prop :=
  ∀ (s : State) (d : SReg) (k : Fin 3),
    let t := s.cur
    let x := t.getS d
    ∀ row ∈ ([(.ccr, (true, true, true), { t with cc := ⟨x.v.getLsbD 0, x.v.getLsbD 1, x.v.getLsbD 2, x.v.getLsbD 3, t.cc.mz,
          t.cc.mf, x.v.getLsbD 6, x.v.getLsbD 7⟩ }),
        (.fpcr, (true, false, false), { t with rm := x.v.extractLsb' 0 2 }),
        (.trappc, (false, true, false), { t with trappc := x.v }),
        (.trapmask k, (false, true, false), { t with trapmask := t.trapmask.set k.val (x.v.extractLsb' 0 32) })] :
        List (SpecialReg × (Bool × Bool × Bool) × Thread)),
      ready (.swr row.1 d) s → modeReject row.2.1 t.decodeMode = none →
        (x.p = false → exec (.swr row.1 d) s = .next (retire s { s with cur := row.2.2 }))
        ∧ (x.p = true → noneOlder s → exec (.swr row.1 d) s = .next (takeTrap s ⟨POISON_CONSUMED, 0, 0⟩ t.pc s.iw none))

/-- 13 R308, R309, R310: SWR of a user interrupt register, by a group in user mode, writes its writable bits in the registers
of the group's context and nothing else of that context: UIHG.V = 1 makes the writing group the handler group, unless
another holds the role inside a handler, and V = 0 ends its own role; DEN of UIDENY is cleared by a one. -/
def Obligations.WriteInterruptRegisters : Prop :=
  ∀ (s : State) (m : Team) (g : Grid) (d : SReg) (k : Fin 3) (n : Fin 64),
    s.team? s.cur.team = some m → s.grid? m.grid = some g → g.slot < s.ctxs.length → s.cur.decodeMode = .user →
    (s.cur.getS d).p = false →
    let t := s.cur
    let x := (s.cur.getS d).v
    let u := (s.ctx g.slot).ui
    let addr := x &&& 0x01FFFFFFFFFFFFFC
    let mine := u.hg = some t.uid
    ∀ row ∈ ([(.uimask, { u with mask := x }), (.uivec, { u with vec := addr }), (.uipc, { u with pc := addr }),
        (.uisavm k, { u with savm := u.savm.set k.val (x.extractLsb' 0 32) }),
        (.uideny, { u with den := u.den && !x.getLsbD 16, drops := x.extractLsb' 0 16 }),
        (.uicnt n, { u with cnt := u.cnt.set n.val (x.extractLsb' 0 16) }),
        (.uidata n, { u with data := u.data.set n.val (x.extractLsb' 0 32) }),
        (.uirule n, { u with rule := u.rule.set n.val (x.extractLsb' 0 8 &&& 0x87) }),
        (.uihg, if x.getLsbD 0 then
            (if u.inh = true ∧ u.hg ≠ none ∧ ¬ mine then u
              else { u with hg := some t.uid, core := t.core, group := t.gid, team := m.slot, inh := u.inh && decide mine })
          else if mine then { u with hg := none, inh := false } else u)] : List (SpecialReg × UiRegs)),
      ready (.swr row.1 d) s → ∃ r, exec (.swr row.1 d) s = .next r
        ∧ r.ctx g.slot = { s.ctx g.slot with ui := row.2 } ∧ (∀ j, j ≠ g.slot → r.ctx j = s.ctx j)
        ∧ r.cur = (retire s s).cur ∧ r.mem = s.mem ∧ r.teams = s.teams ∧ r.grids = s.grids

/-- 15 R343, R345, R347, R349: the privileged words on registers: SRDP reads each privileged register, SWRP writes the writable
ones, in an NCW register the bits that are not reserved, which are saved at its place in the context block at once (the model's
choice of when, log 78); FREPLAY and FDROP set DROP, the latter only where a logged entry waits; TLBSYNC, with every invalidation
acknowledged, only advances, else it waits; HALT is the context error that its scalar gives. -/
def Obligations.PrivilegedRegisters : Prop :=
  ∀ (s : State) (d a : SReg) (n : Fin 16) (k : Fin 3),
    let t := s.cur
    let c := s.ctxOf t
    let x := t.getS d
    let num (x : Nat) : Dword := BitVec.ofNat 64 x
    (∀ row ∈ ([(.ncw n, c.ncw.getD n.val 0), (.trapnpc, t.trapnpc), (.trapdisp, num (2 * t.trapLog.toNat + t.trapDrop.toNat)),
        (.ctxnum, num c.num), (.fltpend k, (t.fltpend.extractLsb' (32 * k.val) 32).zeroExtend 64),
        (.fltinsn, t.fltinsn.zeroExtend 64), (.lselv, num t.lselv)] : List (PrivReg × Dword)),
      ready (.srdp d row.1) s → exec (.srdp d row.1) s = .next (retire s { s with cur := writeS t d ⟨row.2, false⟩ }))
    ∧ (ready (.swrp .trapnpc d) s → x.p = false →
        exec (.swrp .trapnpc d) s = .next (retire s { s with cur := { t with trapnpc := x.v } }))
    ∧ (ready (.swrp (.ncw n) d) s → x.p = false → exec (.swrp (.ncw n) d) s =
        .next (retire s (blockWrite
          (s.modCtx (s.slotOf t) fun c => { c with ncw := c.ncw.set n.val (x.v &&& 0x01FFFFFFFFFF00FD) })
          (s.slotOf t) (0x80 + 8 * n.val) 8 (x.v &&& 0x01FFFFFFFFFF00FD).toNat none)))
    ∧ (ready .freplay s → exec .freplay s = .next (retire s { s with cur := { t with trapDrop := false } }))
    ∧ (ready .fdrop s → exec .fdrop s = .next (retire s { s with cur := { t with trapDrop := t.trapLog } }))
    ∧ (ready .tlbsync s → exec .tlbsync s = .next (if t.invs = [] then retire s s else hold s))
    ∧ (ready (.halt a) s → (t.getS a).p = false → exec (.halt a) s =
        .next (contextError s ((t.getS a).v.extractLsb' 0 8).toNat ((t.getS a).v.extractLsb' 8 8).toNat
          ((t.getS a).v.extractLsb' 8 8).toNat 0))

/-- 15 R346: LSEL names a lane of the frozen group; LRDV, LWRV, LRDP and LWRP read and write a vector register or a predicate
of that lane, with its P bit beside the value, and nothing of any other lane. LRDP gives the value bit as it is stored, beside P
(the model's reading where P is set: log 88). -/
def Obligations.FrozenLane : Prop :=
  ∀ (s : State) (d a : SReg) (v : VReg) (p : PReg),
    let t := s.cur
    let x := t.getS d
    let y := t.getS a
    let old := t.lane (t.wbase + v.val) t.lselv
    let q := t.getP p
    (ready (.lsel a) s → y.p = false → y.v.toNat ≤ 95 →
        exec (.lsel a) s = .next (retire s { s with cur := { t with lselv := y.v.toNat } }))
    ∧ (ready (.lsel a) s → y.p = false → 95 < y.v.toNat → noneOlder s →
        exec (.lsel a) s = .next (takeTrap s ⟨ILLEGAL_INSN, 1, t.pc⟩ t.pc s.iw none))
    ∧ (ready (.lrdv d v) s → exec (.lrdv d v) s = .next (retire s { s with
        cur := writeS t d ⟨BitVec.ofNat 64 (old.v.toNat + old.p.toNat * 2 ^ 32), false⟩ }))
    ∧ (ready (.lrdp d p) s → exec (.lrdp d p) s = .next (retire s { s with
        cur := writeS t d ⟨BitVec.ofNat 64 ((q.v.getLsbD t.lselv).toNat + 2 * (q.p.getLsbD t.lselv).toNat), false⟩ }))
    ∧ (ready (.lwrv d v) s → x.p = false → t.lselv < 96 → t.shaped → ∃ u : Thread,
        exec (.lwrv d v) s = .next (retire s { s with cur := u })
        ∧ { u with vregs := t.vregs } = t
        ∧ ∀ r L, u.lane r L = if r = t.wbase + v.val ∧ L = t.lselv ∧ t.launched.getLsbD L = true
            then ⟨x.v.extractLsb' 0 32, x.v.getLsbD 32⟩ else t.lane r L)
    ∧ (ready (.lwrp d p) s → x.p = false → t.lselv < 96 → t.shaped → ∃ u : Thread,
        exec (.lwrp d p) s = .next (retire s { s with cur := u })
        ∧ { u with preds := t.preds } = t
        ∧ ∀ r : PReg, ∀ L, L < 96 → ((u.getP r).v.getLsbD L, (u.getP r).p.getLsbD L) =
            if r = p ∧ L = t.lselv ∧ t.launched.getLsbD L = true then (x.v.getLsbD 0, x.v.getLsbD 1)
            else ((t.getP r).v.getLsbD L, (t.getP r).p.getLsbD L))

/-- 15 R348, 01 R36, R38: TLBINV to a package of the span is sent and not waited for: to another package as a message, to this
one as an invalidation a tick later; the group keeps its number until it is acknowledged. A reserved value, a bad address,
or an endpoint that is no present package is ACCESS_VIOLATION with detail 0x50. That TRAPADDR is then the address operand is the
model's choice (log 59), so is the tick (log 2), and so is that an invalidation to a package in a dead cell, or of another cell
once this package is isolated, counts as acknowledged at once (log 85).
01 R37, R38: an invalidation that arrives drops the translations that it names, of its context or of all, from every TLB, the
walk cache's entries of that context, for a page those whose region holds its address, and for more than a page the remote
windows; and it is acknowledged when nothing that it noted is left. An
acknowledgement takes its number from the group that sent it. -/
def Obligations.InvalidationSent : Prop :=
  (∀ (s : State) (a b : SReg), ready (.tlbinv a b) s →
    let x := s.cur.getS a
    let y := s.cur.getS b
    let kind := (x.v.extractLsb' 0 2).toNat
    let ep := (x.v.extractLsb' 32 10).toNat
    let good := x.v.extractLsb' 2 14 = 0 ∧ x.v.extractLsb' 42 22 = 0 ∧ kind ≠ 3 ∧ (kind = 0 → y.v.extractLsb' 57 7 = 0)
      ∧ present s ep = true ∧ isHost s ep = false
    let msg : InvMsg := ⟨s.seq, s.self, (x.v.extractLsb' 16 16).toNat,
      if kind = 0 then .page y.v.toNat else if kind = 1 then .context else .all⟩
    x.p = false → y.p = false →
      (good → ∃ r, exec (.tlbinv a b) s = .next r ∧ r.cur = { (retire s s).cur with invs := s.seq :: s.cur.invs }
        ∧ r.seq = s.seq + 1
        ∧ (ep ≠ s.self → let gone := deadCell s (cellOf s ep) || s.isolated && cellOf s ep != cellOf s s.self
          (gone = false → pathsTo s (spanId s) ep ≠ [] → r.outbox = .inval ep msg :: s.outbox ∧ r.agenda = s.agenda)
          ∧ (gone = true → r.outbox = s.outbox ∧ r.agenda = agendaAdd s.now (.invalidationAck s.seq) s.agenda))
        ∧ (ep = s.self → r.outbox = s.outbox ∧ r.agenda = agendaAdd (s.now + 1) (.invalidation msg) s.agenda))
      ∧ (¬ good → noneOlder s → exec (.tlbinv a b) s = .next (takeTrap s ⟨ACCESS_VIOLATION, 0x50, y.v⟩ s.cur.pc s.iw none)))
  ∧ (∀ (s : State) (m : InvMsg) (id : Nat), s.up →
      let ours (slot : Nat) : Bool := m.kind = .all || ((s.ctx slot).num = m.ctx && (s.ctx slot).status ≠ .unknown)
      let named (e : TlbEnt) : Bool := ours e.slot && (match m.kind with
        | .page va => e.va = va / e.size * e.size
        | _ => true)
      (m.ep = s.self ∨ present s m.ep = true ∧ deadCell s (cellOf s m.ep) = false ∧ s.isolated = false →
        ∃ r, exec (.invalidation m) s = .next r ∧ r.cores.length = s.cores.length
          ∧ (∀ k : Nat, ∀ e : TlbEnt, ∀ l ∈ ([Core.tlb, Core.itlb, Core.ctlb, Core.tlb2] : List (Core → List TlbEnt)),
            e ∈ l (r.core k) ↔ e ∈ l (s.core k) ∧ named e = false)
          ∧ (∀ k : Nat, m.kind = .context ∨ m.kind = .all → ∀ w, w ∈ (r.core k).rwc ↔ w ∈ (s.core k).rwc ∧ ours w.1 = false)
          ∧ (∀ w, w ∈ r.wcache ↔ w ∈ s.wcache ∧ (ours w.slot = true → ∃ va, m.kind = .page va
            ∧ w.va ≠ va / 2 ^ (([16, 29, 42, 55] : List Nat).getD w.level 16)))
          ∧ (∀ w ∈ r.walks, ours w.slot = true → w.restart = true)
          ∧ (∃ v, r.invals = s.invals ++ [v] ∧ v.id = s.seq ∧ v.m = m) ∧ r.mem = s.mem ∧ r.threads = s.threads ∧ r.l2 = s.l2)
      ∧ (∀ v ∈ s.invals, v.id = id → (∀ x ∈ s.invals, x.id = id → x = v) → v.m.ep ≠ s.self → present s v.m.ep = true →
        deadCell s (cellOf s v.m.ep) = false → s.isolated = false →
        (s.cores.all (fun k => k.sb.isEmpty && k.loads.isEmpty) = true → s.l2w = [] → s.walks = [] → s.copies = [] → s.devReads = [] →
          (∀ t ∈ s.threads, t.fetching = none) → s.out = false → exec (.invalidationAck id) s = .next { s with
            invals := s.invals.filter fun x => x.id != id, outbox := .invalAck v.m.ep v.m.id :: s.outbox }))
      ∧ ((∀ v ∈ s.invals, v.id ≠ id) → ∃ r, exec (.invalidationAck id) s = .next r
        ∧ r.threads.map Thread.invs = s.threads.map (fun t => t.invs.filter (· != id)) ∧ r.mem = s.mem ∧ r.teams = s.teams
        ∧ (∀ i, i ∈ r.tlbiOpen ↔ i ∈ s.tlbiOpen ∧ i ≠ id)))

/-! ### Vectors (10 R244 to R264, 08 R196 to R213) -/

/-- 10 R244, 06 R154, 02 R46: what a vector result is written to. Of the destination, through the window, only the lanes that
are active change, in both halves of a pair; of a predicate register likewise, a poisoned bit as 0 with P = 1 (R245);
nothing else of the thread changes. -/
def Obligations.LaneWrites : Prop :=
  ∀ (t : Thread) (d : VReg) (q : PReg) (f : Nat → Lane) (g : Nat → SVal) (h : Nat → Bool × Bool), t.shaped →
    ({ t.putV d f with vregs := t.vregs } = t ∧ { t.putV2 d g with vregs := t.vregs } = t
      ∧ { t.putP q h with preds := t.preds } = t)
    ∧ (t.wbase + d.val < t.allot → ∀ r L, L < 96 →
        (t.putV d f).lane r L = if r = t.wbase + d.val ∧ t.activeLane L = true then f L else t.lane r L)
    ∧ (t.wbase + d.val + 1 < t.allot → ∀ r L, L < 96 → (t.putV2 d g).lane r L =
        if t.activeLane L = false then t.lane r L
        else if r = t.wbase + d.val then ⟨(g L).v.extractLsb' 0 32, (g L).p⟩
        else if r = t.wbase + d.val + 1 then ⟨(g L).v.extractLsb' 32 32, (g L).p⟩
        else t.lane r L)
    ∧ (∀ (r : PReg) (L : Nat), L < 96 → (((t.putP q h).getP r).v.getLsbD L, ((t.putP q h).getP r).p.getLsbD L) =
        if r = q ∧ t.activeLane L = true then ((h L).1 && !(h L).2, (h L).2)
        else ((t.getP r).v.getLsbD L, (t.getP r).p.getLsbD L))

/-- 10 R247, R248, R249: the integer instructions of 32 bits, lane by lane: A of a, B of b, D of the old d, with P where an
operand that is read has it, and then zero; VMOV copies bits and P as they are. And the integer
instructions of 64 bits, on pairs. -/
def Obligations.VectorInteger : Prop :=
  (∀ (s : State) (d a : VReg) (b : XOpnd) (i : BitVec 20),
      let t := s.cur
      let res (v : Word) (p : Bool) : Lane := ⟨if p then 0 else v, p⟩
      let one (f : Word → Word) (L : Nat) : Lane := res (f (t.getV a L).v) (t.getV a L).p
      let two (f : Word → Word → Word) (L : Nat) : Lane :=
        res (f (t.getV a L).v (t.getX b L).v) ((t.getV a L).p || (t.getX b L).p)
      let three (f : Word → Word → Word → Word) (L : Nat) : Lane :=
        res (f (t.getV d L).v (t.getV a L).v (t.getX b L).v) ((t.getV d L).p || (t.getV a L).p || (t.getX b L).p)
      let pos (y : Word) : Nat := (y.extractLsb' 0 5).toNat
      let w (y : Word) : Nat := min (y.extractLsb' 8 6).toNat 32
      let mask (y : Word) : Word := if w y = 32 then 0xFFFFFFFF else ((1 : Word) <<< w y) - 1
      let field (x y : Word) : Word := (x >>> pos y) &&& mask y
      let bytes (ext : Byte → Word) (z x y : Word) : Word := z
        + ext (x.extractLsb' 0 8) * ext (y.extractLsb' 0 8) + ext (x.extractLsb' 8 8) * ext (y.extractLsb' 8 8)
        + ext (x.extractLsb' 16 8) * ext (y.extractLsb' 16 8) + ext (x.extractLsb' 24 8) * ext (y.extractLsb' 24 8)
      ∀ row ∈ ([(.vadd d a b, two fun x y => x + y), (.vsub d a b, two fun x y => x - y), (.vmul d a b, two fun x y => x * y),
          (.vmulh d a b, two fun x y => (x.signExtend 64 * y.signExtend 64).extractLsb' 32 32),
          (.vmulhu d a b, two fun x y => (x.zeroExtend 64 * y.zeroExtend 64).extractLsb' 32 32),
          (.vmad d a b, three fun z x y => x * y + z),
          (.vand d a b, two fun x y => x &&& y), (.vor d a b, two fun x y => x ||| y), (.vxor d a b, two fun x y => x ^^^ y),
          (.vandn d a b, two fun x y => x &&& ~~~y),
          (.vshl d a b, two fun x y => x <<< pos y), (.vshr d a b, two fun x y => x >>> pos y),
          (.vsra d a b, two fun x y => x.sshiftRight (pos y)),
          (.vmin d a b, two fun x y => if x.toInt < y.toInt then x else y), (.vminu d a b, two fun x y => if x < y then x else y),
          (.vmax d a b, two fun x y => if x.toInt < y.toInt then y else x), (.vmaxu d a b, two fun x y => if x < y then y else x),
          (.vabs d a, one fun x => if x.toInt < 0 then 0 - x else x), (.vneg d a, one fun x => 0 - x),
          (.vclz d a, one fun x => x.clz), (.vpopc d a, one fun x => x.cpop), (.vbrev d a, one fun x => x.reverse),
          (.vbfeu d a b, two field),
          (.vbfe d a b, two fun x y => if w y = 0 then 0 else (field x y <<< (32 - w y)).sshiftRight (32 - w y)),
          (.vbfi d a b, three fun z x y => (z &&& ~~~(mask y <<< pos y)) ||| ((x &&& mask y) <<< pos y)),
          (.vdp4 d a b, three (bytes fun v => v.signExtend 32)), (.vdp4u d a b, three (bytes fun v => v.zeroExtend 32)),
          (.vmov d b, fun L => t.getX b L), (.vmovi d i, fun _ => ⟨i.signExtend 32, false⟩)] : List (Instr × (Nat → Lane))),
        ready row.1 s → exec row.1 s = .next (retire s { s with cur := t.putV d row.2 }))
  ∧ (∀ (s : State) (d a : VReg) (b : XOpnd),
      let t := s.cur
      let n (y : Dword) : Nat := (y.extractLsb' 0 6).toNat
      ∀ row ∈ ([(.vadd64 d a b, fun x y => x + y), (.vsub64 d a b, fun x y => x - y), (.vmul64 d a b, fun x y => x * y),
          (.vshl64 d a b, fun x y => x <<< n y), (.vshr64 d a b, fun x y => x >>> n y),
          (.vsra64 d a b, fun x y => x.sshiftRight (n y))] : List (Instr × (Dword → Dword → Dword))),
        ready row.1 s → exec row.1 s = .next (retire s { s with cur := t.putV2 d fun L =>
          let p := (t.getV2 a L).p || (t.getX64 b L).p
          ⟨if p then 0 else row.2 (t.getV2 a L).v (t.getX64 b L).v, p⟩ }))

/-- 10 R250, R251, R253 to R255, R257: the FP32 instructions and what writes one lane of 32 bits: the exact result, rounded
once by FPCR.RM or to nearest where the rule says so, poison first, and the events of the active lanes counted in the class
of the target. A minimum, a maximum, a sign operation, a rounding to an integral value and a conversion to an integer count
none. TEVAL evaluates the team's current generation, each step rounded to nearest even: u is (x - XLO) * XSCALE, i is 0 unless
u >= 1, 31 for u >= 31, else u rounded down, t is u - i, and the result c0[i] + t * (c1[i] + t * c2[i]) with its two additions
fused; poisoned where x, the header or one of the three coefficients is, and it counts NaN and infinite results alone. That VEXP2, VLOG2, VSIN and VCOS give the exact result rounded once, as its
enclosures show it, is the model's choice (log 40), and so are the events of an infinity that E4M3 saturates (log 14). -/
def Obligations.VectorFloat : Prop :=
  ∀ (s : State) (m : Team) (d a : VReg) (b : XOpnd), s.team? s.cur.team = some m →
    let t := s.cur
    let x (L : Nat) : FIn := a32 t a L
    let y (L : Nat) : FIn := b32 t b L
    let z (L : Nat) : FIn := a32 t d L
    let xd (L : Nat) : FIn := a64 t a L
    let op (ins : Nat → List FIn) (v : Nat → FVal) (L : Nat) : Nat × Bool × Ev := f32.op t.rm (ins L) (v L)
    let quiet (r : Nat × Bool × Ev) : Nat × Bool × Ev := (r.1, r.2.1, Ev.none)
    let near (v : FVal → FVal) (L : Nat) : Nat × Bool × Ev := f32.op RNE [x L] (v (x L).v)
    let integral (rm : BitVec 2) (L : Nat) : Nat × Bool × Ev := quiet (f32.op rm [x L] ((x L).v.rint rm))
    let narrow (f : Fmt) (L : Nat) : Nat × Bool × Ev :=
      let r := f.op t.rm [⟨(x L).bits, (x L).v, (x L).p || (t.getX b L).p⟩] (x L).v
      ((t.getX b L).v.toNat * 2 ^ f.width % 2 ^ 32 + r.1, r.2)
    let widen (f : Fmt) (L : Nat) : Nat × Bool × Ev :=
      let e := f.read ((t.getV a L).v.toNat % 2 ^ f.width) (t.getV a L).p
      f32.op t.rm [e] e.v
    let whole (lo hi : Int) (x : FIn) : Nat × Bool × Ev :=
      if x.p then (0, true, Ev.none) else ((BitVec.ofInt 32 (toIntSat t.rm lo hi x.v)).toNat, false, Ev.none)
    let ofInt (v : Word → Int) (L : Nat) : Nat × Bool × Ev :=
      f32.op t.rm [⟨0, FVal.ofInt (v (t.getV a L).v), (t.getV a L).p⟩] (FVal.ofInt (v (t.getV a L).v))
    let entry (w : Word) (p : Bool) : FIn := f32.read w.toNat p
    let step (v : FVal) : FVal := f32.value (f32.result RNE v true true).1
    let curve (L : Nat) : Nat × Bool × Ev :=
      let lo := entry m.act.xlo m.act.p
      let scale := entry m.act.xscale m.act.p
      let u := step ((step (fsum RNE [(x L).v, lo.v.negate])).mul scale.v)
      let least (n : Nat) : Bool := (FVal.ofInt n).lt u || (FVal.ofInt n).eq u
      let i : Nat := if !least 1 then 0 else if least 31 then 31 else match u with
        | .fin _ n e => if 0 ≤ e then n * 2 ^ e.toNat else n / 2 ^ (-e).toNat
        | _ => 0
      let c (k : Nat) : FIn := let l := m.act.coef.getD (3 * i + k) Lane.zero
        entry l.v l.p
      let v := step (fsum RNE [u, (FVal.ofInt i).negate])
      let y := step (fsum RNE [v.mul (c 2).v, (c 1).v])
      let r := f32.op RNE [x L, lo, scale, c 0, c 1, c 2] (fsum RNE [v.mul y, (c 0).v])
      (r.1, r.2.1, ⟨r.2.2.nan, r.2.2.inf, 0, 0⟩)
    ∀ row ∈ ([(.vfadd d a b, 1, op (fun L => [x L, y L]) fun L => fsum t.rm [(x L).v, (y L).v]),
        (.vfsub d a b, 1, op (fun L => [x L, y L]) fun L => fsum t.rm [(x L).v, (y L).v.negate]),
        (.vfmul d a b, 1, op (fun L => [x L, y L]) fun L => (x L).v.mul (y L).v),
        (.vfma d a b, 1, op (fun L => [x L, y L, z L]) fun L => fsum t.rm [(x L).v.mul (y L).v, (z L).v]),
        (.vfms d a b, 1, op (fun L => [x L, y L, z L]) fun L => fsum t.rm [(x L).v.mul (y L).v, (z L).v.negate]),
        (.vfnma d a b, 1, op (fun L => [x L, y L, z L]) fun L => fsum t.rm [(z L).v, ((x L).v.mul (y L).v).negate]),
        (.vfmin d a b, 1, fun L => f32.minmax false (x L) (y L)), (.vfmax d a b, 1, fun L => f32.minmax true (x L) (y L)),
        (.vfabs d a, 1, fun L => f32.sign [x L] ((x L).bits % 2 ^ 31)),
        (.vfneg d a, 1, fun L => f32.sign [x L] ((x L).bits ^^^ 2 ^ 31)),
        (.vfcpsgn d a b, 1, fun L => f32.sign [x L, y L] ((x L).bits % 2 ^ 31 + (y L).bits / 2 ^ 31 * 2 ^ 31)),
        (.vfscale d a b, 1, op (fun L => [x L, ⟨0, FVal.one, (t.getX b L).p⟩]) fun L => (x L).v.scale (t.getX b L).v.toInt),
        (.vfrndn d a, 1, integral RNE), (.vfrndz d a, 1, integral RTZ), (.vfrndu d a, 1, integral RUP),
        (.vfrndd d a, 1, integral RDN),
        (.vfdiv d a b, 1, op (fun L => [x L, y L]) fun L => (x L).v.div (y L).v),
        (.vfsqrt d a, 1, op (fun L => [x L]) fun L => (x L).v.sqrt),
        (.vfrcp d a, 1, op (fun L => [x L]) fun L => FVal.one.div (x L).v),
        (.vfrsq d a, 1, op (fun L => [x L]) fun L => (x L).v.rsqrt),
        (.vcvtF32F64 d a, 1, fun L => f32.op t.rm [xd L] (xd L).v),
        (.vcvtBf16F32 d a b, 3, narrow bf16), (.vcvtF16F32 d a b, 2, narrow f16), (.vcvtE4m3F32 d a b, 4, narrow e4m3),
        (.vcvtE5m2F32 d a b, 4, narrow e5m2), (.vcvtF32Bf16 d a, 1, widen bf16), (.vcvtF32F16 d a, 1, widen f16),
        (.vcvtF32E4m3 d a, 1, widen e4m3), (.vcvtF32E5m2 d a, 1, widen e5m2),
        (.vcvtS32F32 d a, 1, fun L => whole (-2 ^ 31) (2 ^ 31 - 1) (x L)), (.vcvtU32F32 d a, 1, fun L => whole 0 (2 ^ 32 - 1) (x L)),
        (.vcvtF32S32 d a, 1, ofInt BitVec.toInt), (.vcvtF32U32 d a, 1, ofInt fun v => Int.ofNat v.toNat),
        (.vcvtS32F64 d a, 1, fun L => whole (-2 ^ 31) (2 ^ 31 - 1) (xd L)),
        (.vexp2 d a, 1, near FVal.exp2), (.vlog2 d a, 1, near FVal.log2), (.vsin d a, 1, near FVal.sinpi),
        (.vcos d a, 1, near FVal.cospi), (.teval d a, 1, curve)] :
        List (Instr × Nat × (Nat → Nat × Bool × Ev))),
      ready row.1 s → exec row.1 s = .next (retire s (countEvents
        { s with cur := t.putV d fun L => ⟨BitVec.ofNat 32 (row.2.2 L).1, (row.2.2 L).2.1⟩ } row.2.1 (laneEvents t row.2.2)))

/-- 10 R250, R251, R253: the FP64 instructions and what writes a pair, as FP32 but counted in class 0. -/
def Obligations.VectorDouble : Prop :=
  ∀ (s : State) (d a : VReg) (b : XOpnd),
    let t := s.cur
    let x (L : Nat) : FIn := a64 t a L
    let y (L : Nat) : FIn := b64 t b L
    let z (L : Nat) : FIn := a64 t d L
    let op (ins : Nat → List FIn) (v : Nat → FVal) (L : Nat) : Nat × Bool × Ev := f64.op t.rm (ins L) (v L)
    let integral (rm : BitVec 2) (L : Nat) : Nat × Bool × Ev :=
      let r := f64.op rm [x L] ((x L).v.rint rm)
      (r.1, r.2.1, Ev.none)
    ∀ row ∈ ([(.vdadd d a b, op (fun L => [x L, y L]) fun L => fsum t.rm [(x L).v, (y L).v]),
        (.vdsub d a b, op (fun L => [x L, y L]) fun L => fsum t.rm [(x L).v, (y L).v.negate]),
        (.vdmul d a b, op (fun L => [x L, y L]) fun L => (x L).v.mul (y L).v),
        (.vdfma d a b, op (fun L => [x L, y L, z L]) fun L => fsum t.rm [(x L).v.mul (y L).v, (z L).v]),
        (.vdfms d a b, op (fun L => [x L, y L, z L]) fun L => fsum t.rm [(x L).v.mul (y L).v, (z L).v.negate]),
        (.vdfnma d a b, op (fun L => [x L, y L, z L]) fun L => fsum t.rm [(z L).v, ((x L).v.mul (y L).v).negate]),
        (.vdmin d a b, fun L => f64.minmax false (x L) (y L)), (.vdmax d a b, fun L => f64.minmax true (x L) (y L)),
        (.vdabs d a, fun L => f64.sign [x L] ((x L).bits % 2 ^ 63)),
        (.vdneg d a, fun L => f64.sign [x L] ((x L).bits ^^^ 2 ^ 63)),
        (.vdscale d a b, op (fun L => [x L, ⟨0, FVal.one, (t.getX64 b L).p⟩]) fun L => (x L).v.scale (t.getX64 b L).v.toInt),
        (.vdrndn d a, integral RNE), (.vdrndz d a, integral RTZ),
        (.vddiv d a b, op (fun L => [x L, y L]) fun L => (x L).v.div (y L).v),
        (.vdsqrt d a, op (fun L => [x L]) fun L => (x L).v.sqrt),
        (.vdrcp d a, op (fun L => [x L]) fun L => FVal.one.div (x L).v),
        (.vdrsq d a, op (fun L => [x L]) fun L => (x L).v.rsqrt),
        (.vcvtF64F32 d a, fun L => f64.op t.rm [a32 t a L] (a32 t a L).v),
        (.vcvtS64F64 d a, fun L => if (x L).p then (0, true, Ev.none)
          else ((BitVec.ofInt 64 (toIntSat t.rm (-2 ^ 63) (2 ^ 63 - 1) (x L).v)).toNat, false, Ev.none)),
        (.vcvtF64S64 d a, fun L => f64.op t.rm [⟨0, FVal.ofInt (t.getV2 a L).v.toInt, (t.getV2 a L).p⟩]
          (FVal.ofInt (t.getV2 a L).v.toInt)),
        (.vcvtF64S32 d a, fun L => f64.op t.rm [⟨0, FVal.ofInt (t.getV a L).v.toInt, (t.getV a L).p⟩]
          (FVal.ofInt (t.getV a L).v.toInt))] : List (Instr × (Nat → Nat × Bool × Ev))),
      ready row.1 s → exec row.1 s = .next (retire s (countEvents
        { s with cur := t.putV2 d fun L => ⟨BitVec.ofNat 64 (row.2 L).1, (row.2 L).2.1⟩ } 0 (laneEvents t row.2)))

/-- 10 R252: the packed instructions of 16-bit elements: each element by its own exact result, rounded once; a lane with P in
an operand, or with an element that is the format's poison value, is poisoned as a whole; VHDOT2 gives one FP32 result. -/
def Obligations.VectorHalf : Prop :=
  ∀ (s : State) (h : HFmt) (d a : VReg) (b : XOpnd),
    let t := s.cur
    let f : Fmt := match h with | .bf => bf16 | .hf => f16
    let elem (w : Word) (k : Nat) : FIn := f.read (w.extractLsb' (16 * k) 16).toNat false
    let x (L k : Nat) : FIn := elem (t.getV a L).v k
    let y (L k : Nat) : FIn := elem (t.getX b L).v k
    let z (L k : Nat) : FIn := elem (t.getV d L).v k
    let px (L : Nat) : Bool := (t.getV a L).p || (x L 0).p || (x L 1).p
    let py (L : Nat) : Bool := (t.getX b L).p || (y L 0).p || (y L 1).p
    let pz (L : Nat) : Bool := (t.getV d L).p || (z L 0).p || (z L 1).p
    let both (p : Bool) (r : Nat → Nat × Bool × Ev) : Nat × Bool × Ev :=
      if p then (f.poisonBits * 65537, true, Ev.none)
      else ((r 0).1 + (r 1).1 * 65536, false, (r 0).2.2.add (r 1).2.2)
    let two (g : FIn → FIn → Nat × Bool × Ev) (L : Nat) : Nat × Bool × Ev :=
      both (px L || py L) fun k => g (x L k) (y L k)
    let dot (L : Nat) : Nat × Bool × Ev :=
      let acc := a32 t d L
      f32.op t.rm [acc, ⟨0, (x L 0).v, px L⟩, ⟨0, (y L 0).v, py L⟩, x L 1, y L 1]
        (fsum t.rm [acc.v, (x L 0).v.mul (y L 0).v, (x L 1).v.mul (y L 1).v])
    ∀ row ∈ ([(.vhadd h d a b, f.cls, two fun x y => f.op t.rm [x, y] (fsum t.rm [x.v, y.v])),
        (.vhsub h d a b, f.cls, two fun x y => f.op t.rm [x, y] (fsum t.rm [x.v, y.v.negate])),
        (.vhmul h d a b, f.cls, two fun x y => f.op t.rm [x, y] (x.v.mul y.v)),
        (.vhfma h d a b, f.cls, fun L => both (px L || py L || pz L) fun k =>
          f.op t.rm [x L k, y L k, z L k] (fsum t.rm [(x L k).v.mul (y L k).v, (z L k).v])),
        (.vhmin h d a b, f.cls, two fun x y => f.minmax false x y), (.vhmax h d a b, f.cls, two fun x y => f.minmax true x y),
        (.vhdot2 h d a b, 1, dot)] : List (Instr × Nat × (Nat → Nat × Bool × Ev))),
      ready row.1 s → exec row.1 s = .next (retire s (countEvents
        { s with cur := t.putV d fun L => ⟨BitVec.ofNat 32 (row.2.2 L).1, (row.2.2 L).2.1⟩ } row.2.1 (laneEvents t row.2.2)))

/-- 08 R198, R199, R209, R210: rounding, and the exception counters. Rounded toward zero, a finite value ± m × 2^e takes the
greatest finite code whose magnitude does not exceed it, with the sign of the value. In every mode, with codes that go on above
the format's range (code c stands for num c × 2^ex c), it takes the code l next below it or l + 1 when it is not exact: RNE the
nearer, of two equally near the even one; RUP and RDN by its sign. It overflows when that code lies above the largest finite one:
OVF is counted then and only then, and the result is infinity, with INF, in a format that has it under RNE and where RUP or RDN
rounds away from zero, else the largest finite code. UNF is counted when it is not zero, below the smallest normal number and not
exact. A class's counters rise by the events of the active lanes and saturate; a CROSS bit sets when its counter passes from below
THR, which is not 0, to THR or above; a bit that sets names the kernel, but for one of a lower number in the same tick; and one
event goes to the host when IE is set and no bit was. -/
def Obligations.RoundTowardZero : Prop :=
  (∀ f ∈ [f64, f32, f16, bf16, e4m3, e5m2, e3m2], ∀ (neg : Bool) (m : Nat) (e : Int),
    let sign := if neg then 2 ^ (f.eb + f.mb) else 0
    let num (c : Nat) : Nat := if c < 2 ^ f.mb then c else 2 ^ f.mb + c % 2 ^ f.mb
    let ex (c : Nat) : Int := 1 - (f.bias : Int) - (f.mb : Int) + ((c / 2 ^ f.mb - 1 : Nat) : Int)
    (let r := f.round RTZ neg m e
      let code := r.1 - sign
      let le (c : Nat) : Prop := ∀ n k, f.value c = .fin false n k → n * 2 ^ (k - min k e).toNat ≤ m * 2 ^ (e - min k e).toNat
      sign ≤ r.1 ∧ code ≤ f.maxBits ∧ le code ∧ (code < f.maxBits → ¬ le (code + 1))
        ∧ (r.2.ovf = 1 → code = f.maxBits) ∧ r.2.nan = 0 ∧ r.2.inf = 0)
    ∧ ∀ rm : BitVec 2, (m = 0 → f.round rm neg m e = (sign, Ev.none))
      ∧ (m ≠ 0 → ∃ l c : Nat,
        let at_ (n : Nat) (k : Int) : Nat := n * 2 ^ (k - min k e).toNat
        let here (k : Int) : Nat := m * 2 ^ (e - min k e).toNat
        let exact := at_ (num l) (ex l) = here (ex l)
        let toInf := f.kind = .ieee ∧ (rm = RNE ∨ rm = RUP ∧ neg = false ∨ rm = RDN ∧ neg = true)
        at_ (num l) (ex l) ≤ here (ex l) ∧ here (ex (l + 1)) < at_ (num (l + 1)) (ex (l + 1))
        ∧ (exact → c = l)
        ∧ (¬ exact → (rm = RTZ → c = l) ∧ (rm = RUP → c = if neg then l else l + 1) ∧ (rm = RDN → c = if neg then l + 1 else l)
          ∧ (rm = RNE → if at_ (2 * num l + 1) (ex l) < 2 * here (ex l) then c = l + 1
            else if 2 * here (ex l) < at_ (2 * num l + 1) (ex l) then c = l else c % 2 = 0 ∧ (c = l ∨ c = l + 1)))
        ∧ (f.maxBits < c → (toInf → f.round rm neg m e = (sign + (2 ^ f.eb - 1) * 2 ^ f.mb, ⟨0, 1, 1, 0⟩))
          ∧ (¬ toInf → f.round rm neg m e = (sign + f.maxBits, ⟨0, 0, 1, 0⟩)))
        ∧ (c ≤ f.maxBits → let r := f.round rm neg m e
          let normal : Int := 1 - (f.bias : Int)
          r.1 = sign + c ∧ r.2.nan = 0 ∧ r.2.inf = 0 ∧ r.2.ovf = 0 ∧ r.2.unf ≤ 1
          ∧ (r.2.unf = 1 ↔ ¬ exact ∧ here normal < at_ 1 normal))))
  ∧ (∀ (s : State) (slot cls : Nat) (kentry : Dword) (e : Ev), cls < 6 → slot < s.ctxs.length → (s.ctx slot).fx.cnt.length = 24 →
    let fx := (s.ctx slot).fx
    let r := countFor s slot kentry cls e
    let new (j : Nat) : Nat := min ((fx.cnt.getD j 0).toNat + ([e.nan, e.inf, e.ovf, e.unf].getD (j % 4) 0)) 0xFFFFFFFF
    let thr := (fx.ctl.extractLsb' 0 32).toNat
    let crosses (j : Nat) : Prop := j < 24 ∧ j / 4 = cls ∧ thr ≠ 0 ∧ (fx.cnt.getD j 0).toNat < thr ∧ thr ≤ new j
    let sets (j : Nat) : Prop := crosses j ∧ fx.stat.getLsbD j = false
    let names := ∃ j, sets j ∧ ∀ b, fx.kentAt = some (s.now, b) → j ≤ b
    let host := (∃ j, sets j) ∧ fx.stat = 0 ∧ fx.ctl.getLsbD 63 = true
    let told := hostEvent s slot 0 0
    (∀ j, j < 24 → ((r.ctx slot).fx.cnt.getD j 0).toNat = if j / 4 = cls then new j else (fx.cnt.getD j 0).toNat)
    ∧ (∀ j, j < 64 → ((r.ctx slot).fx.stat.getLsbD j = true ↔ fx.stat.getLsbD j = true ∨ crosses j))
    ∧ (names → (r.ctx slot).fx.kent = kentry) ∧ (¬ names → (r.ctx slot).fx.kent = fx.kent)
    ∧ (host → r.evstat = told.evstat ∧ r.outbox = told.outbox) ∧ (¬ host → r.evstat = s.evstat ∧ r.outbox = s.outbox)
    ∧ (r.ctx slot).fx.ctl = fx.ctl ∧ { r.ctx slot with fx := fx } = s.ctx slot ∧ (∀ j, j ≠ slot → r.ctx j = s.ctx j)
    ∧ { r with ctxs := s.ctxs, evstat := s.evstat, outbox := s.outbox } = s)
  ∧ (∀ (s : State) (cls : Nat) (e : Ev), countEvents s cls Ev.none = s ∧ (e ≠ Ev.none → ∀ g, s.gridOf s.cur = some g →
      countEvents s cls e = countFor s (s.slotOf s.cur) g.r.kentry cls e))
  ∧ (∀ (t : Thread) (f : Nat → Nat × Bool × Ev), let sum (k : Ev → Nat) : Nat := ((lanesOf t.mask).map fun L => k (f L).2.2).sum
      laneEvents t f = ⟨sum Ev.nan, sum Ev.inf, sum Ev.ovf, sum Ev.unf⟩)

/-- 10 R254: VFCLASS and VDCLASS set the one bit of the class of each active lane, and never P: poison is bit 10, and so the
poison value; then NaNs by their first significand bit, infinities, zeros, subnormals and normal numbers by sign.
10 R256: TLD makes the team's next generation from the current one: XLO and XSCALE of its scalar, the coefficients of the
active lanes, every other kept; other teams' tables stay. That it is the current one from its issue on is the model's choice
(log 56). -/
def Obligations.ClassAndTable : Prop :=
  (∀ (s : State) (d a : VReg),
      let t := s.cur
      let cls (p neg : Bool) (exp sig max half : Nat) : Nat :=
        if p then 10
        else if exp = max then (if sig = 0 then (if neg then 0 else 7) else if sig < half then 8 else 9)
        else if exp = 0 then (if sig = 0 then (if neg then 3 else 4) else if neg then 2 else 5)
        else if neg then 1 else 6
      (ready (.vfclass d a) s → exec (.vfclass d a) s = .next (retire s { s with cur := t.putV d fun L =>
        let x := t.getV a L
        ⟨(1 : Word) <<< cls (x.p || x.v == 0x7FC05A5A) x.v.msb (x.v.extractLsb' 23 8).toNat (x.v.extractLsb' 0 23).toNat 255 (2 ^ 22),
          false⟩ }))
      ∧ (ready (.vdclass d a) s → exec (.vdclass d a) s = .next (retire s { s with cur := t.putV d fun L =>
        let x := t.getV2 a L
        ⟨(1 : Word) <<< cls (x.p || x.v == 0x7FF8000000005A5A) x.v.msb (x.v.extractLsb' 52 11).toNat (x.v.extractLsb' 0 52).toNat 2047
          (2 ^ 51), false⟩ })))
  ∧ (∀ (s : State) (a : VReg) (b : SReg) (m : Team), s.team? s.cur.team = some m → (∀ x ∈ s.teams, x.id = m.id → x = m) →
      m.act.coef.length = 96 → ready (.tld a b) s →
      let h := s.cur.getS b
      ∃ g : ActTable, g.xlo = h.v.extractLsb' 0 32 ∧ g.xscale = h.v.extractLsb' 32 32 ∧ g.p = h.p ∧ g.coef.length = 96
        ∧ (∀ L, L < 96 → g.coef.getD L Lane.zero = if s.cur.mask.getLsbD L then s.cur.getV a L else m.act.coef.getD L Lane.zero)
        ∧ exec (.tld a b) s = .next (retire s { s with teams := s.teams.map fun x => if x.id = m.id then { m with act := g } else x }))

/-- 10 R259, R260: compares and predicate logic: a bit and its P in each active lane; a poisoned input gives 0 with P = 1. On
FP operands EQ, LT and LE hold of numbers only, NE when EQ does not, UN with a NaN; −0 equals +0. -/
def Obligations.ComparesAndPredicates : Prop :=
  ∀ (s : State) (d a b : PReg) (v : VReg) (x : XOpnd) (w : VReg),
    let t := s.cur
    let i32 (f : Word → Word → Bool) (L : Nat) : Bool × Bool := (f (t.getV v L).v (t.getX x L).v, (t.getV v L).p || (t.getX x L).p)
    let i64 (f : Dword → Dword → Bool) (L : Nat) : Bool × Bool :=
      (f (t.getV2 v L).v (t.getX64 x L).v, (t.getV2 v L).p || (t.getX64 x L).p)
    let f32 (f : FVal → FVal → Bool) (L : Nat) : Bool × Bool := (f (a32 t v L).v (b32 t x L).v, (a32 t v L).p || (b32 t x L).p)
    let f64 (f : FVal → FVal → Bool) (L : Nat) : Bool × Bool := (f (a64 t v L).v (b64 t x L).v, (a64 t v L).p || (b64 t x L).p)
    let eq (x y : FVal) : Bool := !x.isNan && !y.isNan && !x.lt y && !y.lt x
    let p (q : PReg) (L : Nat) : Bool := (t.getP q).v.getLsbD L && !(t.getP q).p.getLsbD L
    let psn (q : PReg) (L : Nat) : Bool := (t.getP q).p.getLsbD L
    let logic (f : Bool → Bool → Bool) (L : Nat) : Bool × Bool := (f (p a L) (p b L), psn a L || psn b L)
    (∀ row ∈ ([(.vicmpEq d v x, i32 fun x y => x == y), (.vicmpNe d v x, i32 fun x y => x != y),
        (.vicmpLt d v x, i32 fun x y => decide (x.toInt < y.toInt)), (.vicmpLe d v x, i32 fun x y => decide (x.toInt ≤ y.toInt)),
        (.vicmpLtu d v x, i32 fun x y => decide (x < y)), (.vicmpLeu d v x, i32 fun x y => decide (x ≤ y)),
        (.vicmp64Eq d v x, i64 fun x y => x == y), (.vicmp64Lt d v x, i64 fun x y => decide (x.toInt < y.toInt)),
        (.vicmp64Ltu d v x, i64 fun x y => decide (x < y)),
        (.vfcmpEq d v x, f32 eq), (.vfcmpNe d v x, f32 fun x y => !eq x y), (.vfcmpLt d v x, f32 fun x y => x.lt y),
        (.vfcmpLe d v x, f32 fun x y => x.lt y || eq x y), (.vfcmpUn d v x, f32 fun x y => x.isNan || y.isNan),
        (.vdcmpEq d v x, f64 eq), (.vdcmpNe d v x, f64 fun x y => !eq x y), (.vdcmpLt d v x, f64 fun x y => x.lt y),
        (.vdcmpLe d v x, f64 fun x y => x.lt y || eq x y), (.vdcmpUn d v x, f64 fun x y => x.isNan || y.isNan),
        (.pand d a b, logic and), (.por d a b, logic or), (.pxor d a b, logic xor), (.pandn d a b, logic fun x y => x && !y),
        (.pnot d a, fun L => (!p a L, psn a L)), (.pset d x, fun L => ((t.getX x L).v != 0, (t.getX x L).p)),
        (.prest d v, fun L => ((t.getV v L).v.getLsbD 0, (t.getV v L).p))] : List (Instr × (Nat → Bool × Bool))),
      ready row.1 s → exec row.1 s = .next (retire s { s with cur := t.putP d row.2 }))
    ∧ (ready (.psave w a) s → exec (.psave w a) s =
        .next (retire s { s with cur := t.putV w fun L => ⟨if p a L then 1 else 0, psn a L⟩ }))

/-- 10 R261: BALLOT writes the bits of a predicate, in the active lanes, to three scalars, each with the poison of its own
lanes, PCNT their number; MANDP, MANDNP and MSETP are mask writes from a predicate: with a poisoned bit in a lane that is
read, nothing changes and POISON_CONSUMED is taken. That a poisoned word of BALLOT keeps the bits of its other lanes is the
model's reading (log 38). -/
def Obligations.MaskFromPredicate : Prop :=
  ∀ (s : State) (d : SReg) (a : PReg),
    let t := s.cur
    let p := t.getP a
    let word (m : LaneMask) (k : Nat) : Word := m.extractLsb' (32 * k) 32
    let bad (k : Nat) : Bool := word (p.p &&& t.mask) k != 0
    let ballot (k : Nat) : SVal := ⟨(word (p.v &&& ~~~p.p &&& t.mask) k).zeroExtend 64, bad k⟩
    (∀ row ∈ ([(.mandp a, t.mask, t.mask &&& p.v), (.mandnp a, t.mask, t.mask &&& ~~~p.v), (.msetp a, t.live, p.v)] :
        List (Instr × LaneMask × LaneMask)), ready row.1 s →
      (p.p &&& row.2.1 = 0 → exec row.1 s = .next (retire s { s with cur := t.setMask row.2.2 }))
      ∧ (p.p &&& row.2.1 ≠ 0 → noneOlder s → exec row.1 s = .next (takeTrap s ⟨POISON_CONSUMED, 0, 0⟩ t.pc s.iw none)))
    ∧ (ready (.pcnt d a) s → (masks t d = true → p.p &&& t.mask = 0) → exec (.pcnt d a) s =
        .next (retire s { s with cur := writeS t d ⟨((p.v &&& t.mask).cpop).zeroExtend 64, p.p &&& t.mask != 0⟩ }))
    ∧ (∀ e g : SReg, e.val = d.val + 1 → g.val = d.val + 2 → g.val < 29 → ready (.ballot d a) s →
        exec (.ballot d a) s = .next (retire s { s with
          cur := ((t.putReg d.val (ballot 0)).putReg e.val (ballot 1)).putReg g.val (ballot 2) }))
    ∧ (d.val = 29 → t.mode = .user → t.stream = false → ready (.ballot d a) s →
        (p.p &&& t.mask = 0 → t.shaped → exec (.ballot d a) s = .next (retire s { s with cur := t.setMask (p.v &&& t.mask) }))
        ∧ (p.p &&& t.mask ≠ 0 → noneOlder s → exec (.ballot d a) s = .next (takeTrap s ⟨POISON_CONSUMED, 0, 0⟩ t.pc s.iw none)))

/-- 10 R262, R263, R264, 08 R213: the instructions that read other lanes, and the selects. A permute reads the lane that the
low seven bits of n name, whatever its state, or the lane's own value outside 0 to 95; the reductions, the scan and VLANE read
the active lanes alone; VFRED.ADD is the tree of seven levels, and writes nothing under a zero mask. -/
def Obligations.CrossLane : Prop :=
  ∀ (s : State) (d a : VReg) (b : XOpnd) (c : SReg) (q : PReg),
    let t := s.cur
    let x (L : Nat) : Lane := t.getV a L
    let act := lanesOf t.mask
    let n (L : Nat) : Nat := ((t.getX b L).v.extractLsb' 0 7).toNat
    let from_ (p : Bool) (src : Int) (L : Nat) : Lane :=
      if p then ⟨0, true⟩ else if 0 ≤ src ∧ src ≤ 95 then x src.toNat else x L
    let res (v : Word) (p : Bool) : Lane := ⟨if p then 0 else v, p⟩
    let any := act.any fun L => (x L).p
    let vals := act.map fun L => (x L).v
    let least (l : List Word) : Word := l.tail.foldl (fun m v => if v.toInt < m.toInt then v else m) (l.headD 0)
    let greatest (l : List Word) : Word := l.tail.foldl (fun m v => if m.toInt < v.toInt then v else m) (l.headD 0)
    let sel (L : Nat) : Bool := (t.getP q).v.getLsbD L
    let selP (L : Nat) : Bool := (t.getP q).p.getLsbD L
    (∀ row ∈ ([(.vperm d a b, fun L => from_ (t.getX b L).p (Int.ofNat (n L)) L),
        (.vshflx d a b, fun L => from_ (t.getX b L).p (Int.ofNat (L ^^^ n L)) L),
        (.vshflu d a b, fun L => from_ (t.getX b L).p (Int.ofNat L - Int.ofNat (n L)) L),
        (.vshfld d a b, fun L => from_ (t.getX b L).p (Int.ofNat (L + n L)) L),
        (.vbcast d a c, fun L => from_ (t.getS c).p (Int.ofNat ((t.getS c).v.extractLsb' 0 7).toNat) L),
        (.vredAdd d a, fun _ => res (vals.foldl (fun m v => m + v) 0) any), (.vredMin d a, fun _ => res (least vals) any),
        (.vredMax d a, fun _ => res (greatest vals) any),
        (.vredAnd d a, fun _ => res (vals.foldl (fun m v => m &&& v) 0xFFFFFFFF) any),
        (.vredOr d a, fun _ => res (vals.foldl (fun m v => m ||| v) 0) any),
        (.vredXor d a, fun _ => res (vals.foldl (fun m v => m ^^^ v) 0) any),
        (.vscanAdd d a, fun L => res (((act.filter fun K => decide (K ≤ L)).map fun K => (x K).v).foldl (fun m v => m + v) 0)
          ((act.filter fun K => decide (K ≤ L)).any fun K => (x K).p)),
        (.vlane d, fun L => ⟨BitVec.ofNat 32 (act.filter fun K => decide (K < L)).length, false⟩),
        (.vsel q d a b, fun L => if selP L then ⟨0, true⟩ else if sel L then x L else t.getX b L),
        (.vpmov q d b, fun L => if selP L then ⟨0, true⟩ else if sel L then t.getX b L else t.getV d L)] :
        List (Instr × (Nat → Lane))),
      ready row.1 s → t.mask ≠ 0 → exec row.1 s = .next (retire s { s with cur := t.putV d row.2 }))
    ∧ (ready (.vfredAdd d a) s → t.mask ≠ 0 →
        let r := fredTree fun L => if t.mask.getLsbD L then some (x L) else none
        exec (.vfredAdd d a) s = .next (retire s (countEvents { s with cur := t.putV d fun _ => r.1 } 1 r.2)))
    ∧ (ready (.vfredAdd d a) s → t.mask = 0 → exec (.vfredAdd d a) s = .next (retire s s))

/-! ### Memory (09 R223 to R225, 11 R265 to R287, 03 R68 to R81) -/

/-- 09 R223, R224, 11 R267, R278: a scalar load, store or atomic on an aligned address takes one operand log entry of one
lane, with its operands as they stand, and sends it; a poisoned address is POISON_CONSUMED, then an address that is not a
multiple of the size MISALIGNED; with 8 entries in use the word waits. -/
def Obligations.ScalarMemory : Prop :=
  ∀ (s : State) (d a b : SReg) (i : BitVec 10),
    let t := s.cur
    let x := t.getS a
    let v := t.getS d
    let w := t.getS b
    let reg : Dst := .scal d (t.mode == .sup && decide (d.val < 16))
    let at_ (n : Nat) : Dword := x.v + BitVec.ofNat 64 n * i.signExtend 64
    let wide (lo hi : Dword) : BitVec 128 := hi ++ lo
    ∀ row ∈ ([(.sldb d a i, .load 1 .normal, reg, at_ 1, 1, 0, false), (.sldh d a i, .load 2 .normal, reg, at_ 2, 2, 0, false),
        (.sldw d a i, .load 4 .normal, reg, at_ 4, 4, 0, false), (.sldd d a i, .load 8 .normal, reg, at_ 8, 8, 0, false),
        (.sstb d a i, .store 1 .normal, .none, at_ 1, 1, wide v.v 0, v.p),
        (.ssth d a i, .store 2 .normal, .none, at_ 2, 2, wide v.v 0, v.p),
        (.sstw d a i, .store 4 .normal, .none, at_ 4, 4, wide v.v 0, v.p),
        (.sstd d a i, .store 8 .normal, .none, at_ 8, 8, wide v.v 0, v.p),
        (.satomAdd d a, .atom .add 8, reg, x.v, 8, wide v.v 0, v.p), (.satomSwap d a, .atom .swap 8, reg, x.v, 8, wide v.v 0, v.p),
        (.satomCas d a b, .atom .cas 8, reg, x.v, 8, wide v.v w.v, v.p || w.p),
        (.satomMin d a, .atom .min 8, reg, x.v, 8, wide v.v 0, v.p), (.satomMax d a, .atom .max 8, reg, x.v, 8, wide v.v 0, v.p),
        (.satomOr d a, .atom .or 8, reg, x.v, 8, wide v.v 0, v.p), (.satomAnd d a, .atom .and 8, reg, x.v, 8, wide v.v 0, v.p)] :
        List (Instr × MemOp × Dst × Dword × Nat × BitVec 128 × Bool)),
      let (j, op, dst, addr, n, data, psn) := row
      let e : LogEntry := { id := t.nextEntry, insn := s.iw, pc := t.pc, op := op, dst := dst, scalar := true, sup := t.mode == .sup
                            active := 1, performed := 0, flight := 0, faults := [], moving := 0, held := false, addrs := [addr]
                            data := [data], dataP := if psn then 1 else 0, next := 0, stop := 0, wbs := [], desc := 0, win := [] }
      ready j s →
        (x.p = true → noneOlder s → exec j s = .next (takeTrap s ⟨POISON_CONSUMED, 0, 0⟩ t.pc s.iw none))
        ∧ (x.p = false → addr.toNat % n ≠ 0 → noneOlder s → exec j s = .next (takeTrap s ⟨MISALIGNED, 0, addr⟩ t.pc s.iw none))
        ∧ (x.p = false → addr.toNat % n = 0 →
          exec j s = .next (if 8 ≤ t.log.length then hold s
            else retire s (pumpLog none { s with cur := { t with log := t.log ++ [e], nextEntry := t.nextEntry + 1 } })))

/-- 11 R265, R266, R267, R269, R271, R273: a vector load, store or atomic takes one operand log entry of its active lanes, with
each lane's address, the sum S[a] + B or a pair, and its operands, and sends them. The first check that fails traps with nothing
performed: a poisoned base or active lane, then the lowest active lane that is not aligned. Under a zero mask nothing happens. -/
def Obligations.VectorMemory : Prop :=
  ∀ (s : State) (d : VReg) (adr : VAddr) (h : Hint),
    let t := s.cur
    let addr (L : Nat) : SVal := match adr with
      | .base a b => ⟨(t.getS a).v + (t.getX64 b L).v, (t.getS a).p || (t.getX64 b L).p⟩
      | .pair a => t.getV2 a L
    let lanes := lanesOf t.mask
    let dst (n : Nat) : Dst := .vec (t.wbase + d.val) n
    let atom (op : AtomOp) (n regs res : Nat) : MemOp × Dst × Nat × Nat := (.atom op n, dst res, n, regs)
    ∀ row ∈ ([(.vldb h d adr, .load 1 h, dst 1, 1, 0), (.vldh h d adr, .load 2 h, dst 1, 2, 0),
        (.vldw h d adr, .load 4 h, dst 1, 4, 0), (.vldd h d adr, .load 8 h, dst 2, 8, 0), (.vldq h d adr, .load 16 h, dst 4, 16, 0),
        (.vstb h d adr, .store 1 h, .none, 1, 1), (.vsth h d adr, .store 2 h, .none, 2, 1),
        (.vstw h d adr, .store 4 h, .none, 4, 1), (.vstd h d adr, .store 8 h, .none, 8, 2), (.vstq h d adr, .store 16 h, .none, 16, 4),
        (.atomAddW d adr, atom .add 4 1 1), (.atomAddD d adr, atom .add 8 2 2), (.atomMinW d adr, atom .min 4 1 1),
        (.atomMaxW d adr, atom .max 4 1 1), (.atomMinuW d adr, atom .minu 4 1 1), (.atomMaxuW d adr, atom .maxu 4 1 1),
        (.atomMinD d adr, atom .min 8 2 2), (.atomMaxD d adr, atom .max 8 2 2), (.atomAndW d adr, atom .and 4 1 1),
        (.atomOrW d adr, atom .or 4 1 1), (.atomXorW d adr, atom .xor 4 1 1), (.atomAndD d adr, atom .and 8 2 2),
        (.atomOrD d adr, atom .or 8 2 2), (.atomXorD d adr, atom .xor 8 2 2), (.atomSwapW d adr, atom .swap 4 1 1),
        (.atomSwapD d adr, atom .swap 8 2 2), (.atomCasW d adr, atom .cas 4 2 1), (.atomCasD d adr, atom .cas 8 4 2),
        (.atomFaddF32 d adr, atom .fadd 4 1 1), (.atomFaddF64 d adr, atom .fadd 8 2 2), (.atomFminF32 d adr, atom .fmin 4 1 1),
        (.atomFmaxF32 d adr, atom .fmax 4 1 1)] : List (Instr × MemOp × Dst × Nat × Nat)),
      let (j, op, dst, n, regs) := row
      let on (L : Nat) : Bool := t.mask.getLsbD L
      let e : LogEntry := { id := t.nextEntry, insn := s.iw, pc := t.pc, op := op, dst := dst, scalar := false
                            sup := t.mode == .sup, active := t.mask, performed := 0, flight := 0, faults := [], moving := 0
                            held := false, addrs := (List.range 96).map fun L => if on L then (addr L).v else 0
                            data := (List.range 96).map fun L => if on L then BitVec.ofNat 128 (laneData t d regs L).1 else 0
                            dataP := lanesWhere fun L => on L && (laneData t d regs L).2
                            next := 0, stop := 0, wbs := [], desc := 0, win := [] }
      ready j s → (t.mask = 0 → (∀ L, (addr L).p = false) → exec j s = .next (retire s s))
        ∧ ((∃ L ∈ lanes, (addr L).p = true) → noneOlder s → exec j s = .next (takeTrap s ⟨POISON_CONSUMED, 0, 0⟩ t.pc s.iw none))
        ∧ (t.mask ≠ 0 → (∀ L ∈ lanes, (addr L).p = false) →
          (∀ L ∈ lanes, (addr L).v.toNat % n ≠ 0 → (∀ K ∈ lanes, K < L → (addr K).v.toNat % n = 0) → noneOlder s →
            exec j s = .next (takeTrap s ⟨MISALIGNED, 0, (addr L).v⟩ t.pc s.iw none))
          ∧ ((∀ L ∈ lanes, (addr L).v.toNat % n = 0) → t.log.length < 8 → exec j s = .next (retire s (pumpLog none
            { s with cur := { t with log := t.log ++ [e], nextEntry := t.nextEntry + 1 } })))
          ∧ ((∀ L ∈ lanes, (addr L).v.toNat % n = 0) → 8 ≤ t.log.length → exec j s = .next (hold s)))

/-- 11 R265, R276, R277: a scratchpad load, store or atomic takes one operand log entry of its active lanes, at S[a] plus the
sign-extended 32 bits of b, and sends them; besides poisoned and misaligned addresses, a store with a poisoned lane that
carries no poison value for its size, and an integer atomic with a poisoned operand, is POISON_CONSUMED, with nothing
performed. -/
def Obligations.ScratchMemory : Prop :=
  ∀ (s : State) (d : VReg) (a : SReg) (b : XOpnd),
    let t := s.cur
    let addr (L : Nat) : SVal := ⟨(t.getS a).v + (t.getX b L).v.signExtend 64, (t.getS a).p || (t.getX b L).p⟩
    let lanes := lanesOf t.mask
    let dst (n : Nat) : Dst := .vec (t.wbase + d.val) n
    ∀ row ∈ ([(.spldb d a b, .spLoad 1, dst 1, 1, 0), (.spldh d a b, .spLoad 2, dst 1, 2, 0), (.spldw d a b, .spLoad 4, dst 1, 4, 0),
        (.spldd d a b, .spLoad 8, dst 2, 8, 0), (.spldq d a b, .spLoad 16, dst 4, 16, 0),
        (.spstb d a b, .spStore 1, .none, 1, 1), (.spsth d a b, .spStore 2, .none, 2, 1), (.spstw d a b, .spStore 4, .none, 4, 1),
        (.spstd d a b, .spStore 8, .none, 8, 2), (.spstq d a b, .spStore 16, .none, 16, 4),
        (.spatomAdd d a b, .spAtom .add, dst 1, 4, 1), (.spatomMin d a b, .spAtom .min, dst 1, 4, 1),
        (.spatomMax d a b, .spAtom .max, dst 1, 4, 1), (.spatomSwap d a b, .spAtom .swap, dst 1, 4, 1),
        (.spatomCas d a b, .spAtom .cas, dst 1, 4, 2), (.spatomFadd d a b, .spAtom .fadd, dst 1, 4, 1)] :
        List (Instr × MemOp × Dst × Nat × Nat)),
      let (j, op, dst, n, regs) := row
      let on (L : Nat) : Bool := t.mask.getLsbD L
      let refused (L : Nat) : Bool := (laneData t d regs L).2 && (match op with
        | .spStore _ => !carriesPoison n (laneData t d regs L).1
        | .spAtom .fadd => false
        | _ => true)
      let e : LogEntry := { id := t.nextEntry, insn := s.iw, pc := t.pc, op := op, dst := dst, scalar := false
                            sup := t.mode == .sup, active := t.mask, performed := 0, flight := 0, faults := [], moving := 0
                            held := false, addrs := (List.range 96).map fun L => if on L then (addr L).v else 0
                            data := (List.range 96).map fun L => if on L then BitVec.ofNat 128 (laneData t d regs L).1 else 0
                            dataP := lanesWhere fun L => on L && (laneData t d regs L).2
                            next := 0, stop := 0, wbs := [], desc := 0, win := [] }
      ready j s → t.mask ≠ 0 → ((∃ L ∈ lanes, (addr L).p = true) → noneOlder s →
          exec j s = .next (takeTrap s ⟨POISON_CONSUMED, 0, 0⟩ t.pc s.iw none))
        ∧ ((∀ L ∈ lanes, (addr L).p = false) →
          (∀ L ∈ lanes, (addr L).v.toNat % n ≠ 0 → (∀ K ∈ lanes, K < L → (addr K).v.toNat % n = 0) → noneOlder s →
            exec j s = .next (takeTrap s ⟨MISALIGNED, 0, (addr L).v⟩ t.pc s.iw none))
          ∧ ((∀ L ∈ lanes, (addr L).v.toNat % n = 0) → (∃ L ∈ lanes, refused L = true) → noneOlder s →
            exec j s = .next (takeTrap s ⟨POISON_CONSUMED, 0, 0⟩ t.pc s.iw none))
          ∧ ((∀ L ∈ lanes, (addr L).v.toNat % n = 0) → (∀ L ∈ lanes, refused L = false) →
            exec j s = .next (if 8 ≤ t.log.length then hold s
              else retire s (pumpLog none { s with cur := { t with log := t.log ++ [e], nextEntry := t.nextEntry + 1 } }))))

/-- 11 R276, 02 R50, 01 R15: what a scratchpad access of one lane to the own team's run does, its bytes within the run, not held
by a watermark, with no other entry in the log and room in the core's replay buffer (11 R268): a load writes the bytes,
little-endian, to the lane of its destination with P = 0, a store changes those bytes, an atomic returns the old word and writes
the new one; FADD writes the sum rounded to nearest and counts its events in the class of FP32, and with a poisoned operand or
sum it writes and returns the poison value with P = 1. No other byte of any scratchpad changes, no memory, and no other lane or
register. -/
def Obligations.ScratchEffect : Prop :=
  ∀ (s : State) (m : Team) (d : VReg) (a : SReg) (b : XOpnd) (L off : Nat),
    s.team? s.cur.team = some m → (∀ x ∈ s.teams, x.id = m.id → x = m) → m.exited = false → s.out = true →
    s.cur.shaped → s.cur.log = [] → replayFull s s.cur.core = false → L < 96 → s.cur.mask = BitVec.ofNat 96 (2 ^ L) → s.cur.launched.getLsbD L = true →
    let t := s.cur
    let adr : Dword := (t.getS a).v + (t.getX b L).v.signExtend 64
    let v := (t.getV d L).v
    let old : Word := BitVec.ofNat 32 (Mem.load m.scratch off 4)
    (t.getS a).p = false → (t.getX b L).p = false →
    let fits (n : Nat) : Prop := adr.toNat % n = 0 ∧ scratchAddr s t.team adr n = .ok (t.team, off)
      ∧ heldBy m.marks 1 0 off n = .free
    let inRun (x : Mem) : List Team := s.teams.map fun y => if y.id = m.id then { m with scratch := x } else y
    (∀ row ∈ ([(.spldb d a b, 1, 1), (.spldh d a b, 2, 1), (.spldw d a b, 4, 1), (.spldd d a b, 8, 2), (.spldq d a b, 16, 4)] :
        List (Instr × Nat × Nat)), ready row.1 s → fits row.2.1 → t.wbase + d.val + row.2.2 ≤ t.allot →
        ∃ u : Thread, exec row.1 s = .next (retire s { s with cur := u })
          ∧ { u with vregs := t.vregs, nextEntry := t.nextEntry } = t
          ∧ ∀ r K, K < 96 → u.lane r K = if K = L ∧ t.wbase + d.val ≤ r ∧ r < t.wbase + d.val + row.2.2
            then ⟨BitVec.ofNat 32 (Mem.load m.scratch off row.2.1 / 2 ^ (32 * (r - (t.wbase + d.val)))), false⟩
            else t.lane r K)
    ∧ (∀ row ∈ ([(.spstb d a b, 1), (.spsth d a b, 2), (.spstw d a b, 4)] : List (Instr × Nat)), ready row.1 s → fits row.2 →
        (t.getV d L).p = false → exec row.1 s = .next (retire s { s with
          teams := inRun (Mem.store m.scratch off row.2 v.toNat), cur := { t with nextEntry := t.nextEntry + 1 } }))
    ∧ (∀ row ∈ ([(.spstd d a b, 8, 2), (.spstq d a b, 16, 4)] : List (Instr × Nat × Nat)), ready row.1 s → fits row.2.1 →
        (laneData t d row.2.2 L).2 = false → exec row.1 s = .next (retire s { s with
          teams := inRun (Mem.store m.scratch off row.2.1 (laneData t d row.2.2 L).1)
          cur := { t with nextEntry := t.nextEntry + 1 } }))
    ∧ (∀ row ∈ ([(.spatomAdd d a b, 1, old + v), (.spatomMin d a b, 1, if v.toInt < old.toInt then v else old),
        (.spatomMax d a b, 1, if old.toInt < v.toInt then v else old), (.spatomSwap d a b, 1, v),
        (.spatomCas d a b, 2, if old = v then (t.lane (t.wbase + d.val + 1) L).v else old)] : List (Instr × Nat × Word)),
        ready row.1 s → fits 4 → (laneData t d row.2.1 L).2 = false → t.wbase + d.val < t.allot →
        ∃ u : Thread, exec row.1 s = .next (retire s { s with
            teams := inRun (Mem.store m.scratch off 4 row.2.2.toNat), cur := u })
          ∧ { u with vregs := t.vregs, nextEntry := t.nextEntry } = t
          ∧ ∀ r K, K < 96 → u.lane r K = if K = L ∧ r = t.wbase + d.val then ⟨old, false⟩ else t.lane r K)
    ∧ (ready (.spatomFadd d a b) s → fits 4 → t.wbase + d.val < t.allot →
        let x := f32.read old.toNat false
        let y := f32.read v.toNat false
        let sum := f32.op RNE [x, y] (fsum RNE [x.v, y.v])
        let p := (laneData t d 1 L).2
        let counted : State := if p then s else match s.grid? m.grid with
          | some g => countFor s g.slot g.r.kentry 1 sum.2.2
          | none => s
        ∃ u : Thread, exec (.spatomFadd d a b) s = .next (retire s { counted with
            teams := inRun (Mem.store m.scratch off 4 (if p then 0x7FC05A5A else sum.1)), cur := u })
          ∧ { u with vregs := t.vregs, nextEntry := t.nextEntry } = t
          ∧ ∀ r K, K < 96 → u.lane r K = if K = L ∧ r = t.wbase + d.val
            then (if p || sum.2.1 then ⟨0x7FC05A5A, true⟩ else ⟨old, false⟩) else t.lane r K)

/-- 02 R53, R57, 03 R70, 11 R272, 09 R225: a scalar load whose line its core holds under a lease, with room in the replay buffer,
reads at once: the bytes of the line under those that the core's store buffer holds for it, zero-extended; the value is poisoned,
and zero, when it takes a byte of a poisoned line or from an entry with its poison flag. No memory and no other register changes.
01 R12, R26, R29: an address with a bit of [63:57] set is ACCESS_VIOLATION 1 with no translation; an entry of the TLB translates,
and where its U, W or X refuses the access it is dropped from every TLB of the core and ACCESS_VIOLATION 2, PAGE_FAULT 4 or
FETCH_FAULT 5 is found; a fetch gives FETCH_FAULT for each. A fault that a walk for the page has found is the access's.
01 R22 to R25, R28: a walk reads four levels from the L3 entries of the context block. An entry with V = 0 is PAGE_FAULT with the
level, a malformed one, or a pointer to a node that is not in Spaind memory, ACCESS_VIOLATION 0x10 plus the level, a leaf that is
refused ACCESS_VIOLATION 4; any other leaf translates 64 KiB, a run 2 MiB, or 512 MiB at L1. A pointer leads to the entry of the
next level that the address indexes, from the walk cache, or read at its physical address, where a line whose home is lost is
HOME_LOST; that a poisoned one reads as zero is the model's choice (log 8). -/
def Obligations.LoadHits : Prop :=
  (∀ (s : State) (d a : SReg) (i : BitVec 10) (e : TlbEnt) (l : L1Line), s.out = true → s.cur.log = [] →
     replayFull s s.cur.core = false →
     ∀ row ∈ ([(.sldb d a i, 1), (.sldh d a i, 2), (.sldw d a i, 4), (.sldd d a i, 8)] : List (Instr × Nat)),
       let t := s.cur
       let va : Dword := (t.getS a).v + BitVec.ofNat 64 row.2 * i.signExtend 64
       let slot := s.slotOf t
       let pa := e.phys va.toNat
       let nc := inWindow (s.ctx slot) va.toNat
       let want := maskAt (pa % 128) row.2
       let held := sbBytes s t.core (pa / 128) slot nc want
       let psn := held.2.2 || (l.psn && want &&& ~~~held.2.1 != 0)
       let v : SVal := ⟨if psn then 0 else BitVec.ofNat 64 (lineGet (lineMerge l.data held.1 held.2.1) (pa % 128) row.2), psn⟩
       ready row.1 s → (t.getS a).p = false → va.toNat % row.2 = 0 → va.toNat < 2 ^ 57 →
       (s.core t.core).tlb.find? (fun e => e.covers slot va.toNat) = some e → (t.mode = .sup ∨ e.u = true) →
       heldBy (s.marksOf t.team) 0 0 va.toNat row.2 = .free → isRegLine s (pa / 128) = false →
       sbWaits s t.core (pa / 128) = false → l1Hit s t.core slot (pa / 128) nc = some l → want &&& ~~~held.2.1 ≠ 0 → (masks t d = true → psn = false) →
         exec row.1 s = .next (retire s { l1Touch s t.core l with cur := { writeS t d v with nextEntry := t.nextEntry + 1 } }))
  ∧ (∀ (s : State) (core slot : Nat) (va : Dword) (acc : Acc) (sup : Bool) (walked : Option Walked),
      let trap (c d : Nat) : Trap := ⟨if acc = .fetch then FETCH_FAULT else c, d, va⟩
      let k := s.core core
      let drop (l : List TlbEnt) : List TlbEnt := l.filter fun e => !e.covers slot va.toNat
      let without : State := s.modCore core fun k =>
        { k with tlb := drop k.tlb, itlb := drop k.itlb, ctlb := drop k.ctlb, tlb2 := drop k.tlb2 }
      let held := (if acc = .fetch then k.itlb else k.tlb).find? fun e => e.covers slot va.toNat
      (2 ^ 57 ≤ va.toNat → xlat s core slot va acc sup walked = (.fault (trap ACCESS_VIOLATION 1), s))
      ∧ (va.toNat < 2 ^ 57 → ∀ e, held = some e → xlat s core slot va acc sup walked =
          if sup = false ∧ e.u = false then (.fault (trap ACCESS_VIOLATION 2), without)
          else if acc = .write ∧ e.w = false then (.fault (trap PAGE_FAULT 4), without)
          else if acc = .fetch ∧ e.x = false then (.fault (trap FETCH_FAULT 5), without)
          else (.ok (e.pa + va.toNat % e.size) e.cen, s))
      ∧ (va.toNat < 2 ^ 57 → held = none → (k.tlb2.find? fun e => e.covers slot va.toNat) = none → ∀ w, walked = some w →
          w.core = core → w.slot = slot → w.page = va.toNat / 65536 → w.code = PAGE_FAULT ∨ w.code = ACCESS_VIOLATION →
          xlat s core slot va acc sup walked = (.fault (trap w.code w.detail), s)))
  ∧ (∀ (s : State) (die slot va level : Nat) (pte : Dword), level < 4 →
      let walk := walkFrom die slot va level pte s
      let field (lo n : Nat) : Nat := (pte.extractLsb' lo n).toNat
      let leaf := pte.getLsbD 1 = true
      let pa := field 16 36 * 65536
      let ep := pa / 2 ^ 42
      let bad : Prop := (leaf ∧ (2 ≤ level ∨ field 10 6 ≠ 0 ∨ (pte.getLsbD 5 = true ∧ level = 1) ∨ 2 ≤ field 6 2
          ∨ (level = 1 ∧ field 16 13 ≠ 0))) ∨ (¬ leaf ∧ (level = 0 ∨ field 2 14 ≠ 0))
      let refused : Prop := present s ep = false ∨ (isHost s ep = true ∧ field 6 2 = 0)
        ∨ (isHost s ep = false ∧ (0xC000000000 ≤ pa % 2 ^ 42 ∨ field 6 2 = 1))
      let size := if level = 1 then 2 ^ 29 else if pte.getLsbD 5 = true then 2 ^ 21 else 2 ^ 16
      (walkNow s die slot va = walkFrom die slot va 3 ((s.ctx slot).l3.getD (va / 2 ^ 55 % 4) 0) s)
      ∧ (pte.getLsbD 0 = false → walk = (.fault PAGE_FAULT level, s))
      ∧ (pte.getLsbD 0 = true → bad → walk = (.fault ACCESS_VIOLATION (0x10 + level), s))
      ∧ (pte.getLsbD 0 = true → ¬ bad → leaf → refused → walk = (.fault ACCESS_VIOLATION 4, s))
      ∧ (pte.getLsbD 0 = true → ¬ bad → leaf → ¬ refused →
          ∃ e, walk = (.ok e, s) ∧ e.slot = slot ∧ e.size = size ∧ e.va ≤ va ∧ va < e.va + size ∧ e.va % size = 0
            ∧ e.pa = pa / size * size ∧ e.w = pte.getLsbD 2 ∧ e.x = pte.getLsbD 3 ∧ e.u = pte.getLsbD 4 ∧ e.cen = pte.getLsbD 9)
      ∧ (pte.getLsbD 0 = true → ¬ bad → ¬ leaf →
          (present s ep = false ∨ isHost s ep = true ∨ 2 ^ 39 ≤ pa % 2 ^ 42) → walk = (.fault ACCESS_VIOLATION (0x10 + level), s))
      ∧ (pte.getLsbD 0 = true → ¬ bad → ¬ leaf → present s ep = true → isHost s ep = false → pa % 2 ^ 42 < 2 ^ 39 →
          let next := level - 1
          let above := va / 2 ^ (if next = 2 then 42 else if next = 1 then 29 else 16)
          let at_ := pa + 8 * (above % 8192)
          let cached := s.wcache.find? fun w => w.die == die && w.slot == slot && w.level == next && w.va == above
          (∀ w, cached = some w → walk = walkFrom die slot va next w.pte s)
          ∧ (cached = none → takeExpired s (at_ / 128) false = (none, s) →
            (∀ r, physRead s slot at_ 8 false false = (.lost, r) → walk = (.fault HOME_LOST 0, r))
            ∧ (∀ d psn r, physRead s slot at_ 8 false false = (.data d psn, r) →
              ∃ r', walk = walkFrom die slot va next (if psn then 0 else d.extractLsb' 0 64) r'
                ∧ { r' with wcache := r.wcache } = r))))

/-- 02 R55, R56, 09 R225, 11 R272: a scalar store whose page is writable, to a line of which the core's store buffer has no open
entry, with room in the replay buffer and no entry there that a page's move holds back, takes a free entry with its bytes, their
mask, its poison and its time; the entry stays open for 32 ticks. No memory, no register and no other entry changes: the lane is
performed when the entry is. -/
def Obligations.StoreBuffered : Prop :=
  ∀ (s : State) (d a : SReg) (i : BitVec 10) (e : TlbEnt), s.cur.log = [] → s.cur.core < s.cores.length →
    replayFull s s.cur.core = false →
    (∀ x ∈ s.agenda, x.2 ≠ .storeBufferTimeout s.cur.core s.seq) →
    ∀ row ∈ ([(.sstb d a i, 1), (.ssth d a i, 2), (.sstw d a i, 4), (.sstd d a i, 8)] : List (Instr × Nat)),
      let t := s.cur
      let va : Dword := (t.getS a).v + BitVec.ofNat 64 row.2 * i.signExtend 64
      let slot := s.slotOf t
      let pa := e.phys va.toNat
      let nc := inWindow (s.ctx slot) va.toNat
      let v := t.getS d
      let new : SbEntry := ⟨s.seq, pa / 128, slot, nc, e.cen, va.toNat / 128 * 128, lineAt (pa % 128) row.2 v.v.toNat,
        maskAt (pa % 128) row.2, v.p, false, none, s.now, false, [⟨t.uid, t.nextEntry, 1⟩], none, false, false, []⟩
      ready row.1 s → (t.getS a).p = false → va.toNat % row.2 = 0 → va.toNat < 2 ^ 57 →
      (s.core t.core).tlb.find? (fun e => e.covers slot va.toNat) = some e → (t.mode = .sup ∨ e.u = true) → e.w = true →
      heldBy (s.marksOf t.team) 0 0 va.toNat row.2 = .free → isRegLine s (pa / 128) = false →
      sbWaits s t.core (pa / 128) = false → (s.core t.core).sb.length < 32 → (∀ x ∈ (s.core t.core).sb, x.line ≠ pa / 128) →
        ∃ r : State, exec row.1 s = .next (retire s r) ∧ (r.core t.core).sb = (s.core t.core).sb ++ [new]
          ∧ (∀ k, k ≠ t.core → r.core k = s.core k) ∧ r.agenda = agendaAdd (s.now + 32) (.storeBufferTimeout t.core s.seq) s.agenda
          ∧ r.mem = s.mem ∧ r.l2 = s.l2 ∧ r.teams = s.teams
          ∧ { r.cur with log := t.log, nextEntry := t.nextEntry } = t
          ∧ r.cur.log.map LogEntry.flight = [1] ∧ r.cur.log.map LogEntry.performed = [0]

/-- 11 R273, R275, R278, 08 R207: what an atomic does to its line at one instant. With operand and line clean, the integer
operations leave the new value in their bytes, return the old one, and change no other byte; a poisoned operand or line gives an
integer atomic zero with P = 1, changes no byte and poisons the line. FADD leaves the sum rounded to nearest, FMIN and FMAX the
lesser and the greater, and they return the old value; with a poisoned operand, line or result the poison value of the format is
written and returned with P = 1, and the line's PSN stays as it was: that this last holds for a poisoned line is the model's
reading (log 13). -/
def Obligations.AtomicEffect : Prop :=
  (∀ (line : LineData) (psn : Bool) (off : Nat) (op : AtomOp) (size : Nat) (v new : Dword) (p : Bool),
    (size = 4 ∨ size = 8) → off % size = 0 → off + size ≤ 128 → op ≠ .fadd → op ≠ .fmin → op ≠ .fmax →
    let r := atomApply ⟨op, off, size, v, new, p⟩ line psn
    let w := 8 * size
    let m : BitVec w := line.extractLsb' (8 * off) w
    let x : BitVec w := v.truncate w
    let result : BitVec w := match op with
      | .add => m + x
      | .min => if x.toInt < m.toInt then x else m
      | .max => if m.toInt < x.toInt then x else m
      | .minu => if x < m then x else m
      | .maxu => if m < x then x else m
      | .and => m &&& x
      | .or => m ||| x
      | .xor => m ^^^ x
      | .cas => if m = x then new.truncate w else m
      | _ => x
    (p = false → psn = false → r.2.1 = false ∧ r.2.2 = ⟨m.zeroExtend 64, false⟩ ∧ r.1.extractLsb' (8 * off) w = result
      ∧ ∀ k, (k < 8 * off ∨ 8 * off + w ≤ k) → r.1.getLsbD k = line.getLsbD k)
    ∧ ((p = true ∨ psn = true) → r = (line, true, ⟨0, true⟩)))
  ∧ (∀ (line : LineData) (psn : Bool) (off : Nat) (v new : Dword) (p : Bool),
    ∀ row ∈ ([(.fadd, f32, 4), (.fadd, f64, 8), (.fmin, f32, 4), (.fmax, f32, 4)] : List (AtomOp × Fmt × Nat)),
      let (op, f, n) := row
      off % n = 0 → off + n ≤ 128 →
      let r := atomApply ⟨op, off, n, v, new, p⟩ line psn
      let m := (line.extractLsb' (8 * off) (8 * n)).toNat
      let a := f.read m false
      let b := f.read (v.extractLsb' 0 (8 * n)).toNat false
      let clean : Nat × Bool × Ev := match op with
        | .fmin => f.minmax false a b
        | .fmax => f.minmax true a b
        | _ => f.op RNE [a, b] (fsum RNE [a.v, b.v])
      let bad := p || psn || clean.2.1
      r.2.1 = psn ∧ r.2.2 = (if bad then ⟨BitVec.ofNat 64 f.poisonBits, true⟩ else ⟨BitVec.ofNat 64 m, false⟩)
        ∧ (r.1.extractLsb' (8 * off) (8 * n)).toNat = (if bad then f.poisonBits else clean.1)
        ∧ ∀ k, (k < 8 * off ∨ 8 * off + 8 * n ≤ k) → r.1.getLsbD k = line.getLsbD k)

/-- 11 R279, R280, R281, 03 R77, R79: fences and WAITC with nothing to wait for only go on, FENCE.SPAN after it has dropped
the clean untracked lines of its context; with a load or a store of the group unperformed, a fence waits. -/
def Obligations.Fences : Prop :=
  ∀ (s : State),
    let t := s.cur
    let slot := s.slotOf t
    let mine := ∃ e ∈ (s.core t.core).sb, ∃ c ∈ e.from_, c.uid = t.uid
    (t.liveLog = [] →
      (ready .fenceCore s → exec .fenceCore s = .next (retire s s))
      ∧ (¬ mine → t.lct ≤ s.now →
        (ready .fencePkg s → exec .fencePkg s = .next (retire s s))
        ∧ (ready .waitc s → exec .waitc s = .next (retire s s))
        ∧ (ready .fenceSpan s → (∀ l ∈ s.l2, ∀ u, l.unt = some u → u.1 = slot → u.2 = 0) → untrackedOpen s slot = false →
          remoteOpen s t.uid = false → (s.ctx slot).pdeny = none → (s.ctx slot).outcomes = [] →
          (∀ g ∈ s.grids, g.outcomes = []) → exec .fenceSpan s = .next (retire s (dropUntracked s slot)))))
    ∧ (∀ e ∈ t.liveLog, (∃ n h, e.op = .load n h) → e.unperformed ≠ 0 → ready .fenceCore s →
        exec .fenceCore s = .next (block s (.fence .core)))
    ∧ (∀ e ∈ t.liveLog, ((∃ n h, e.op = .load n h) ∨ ∃ n h, e.op = .store n h) → e.unperformed ≠ 0 → ¬ mine →
        ∀ row ∈ ([(.fencePkg, .pkg), (.fenceSpan, .span)] : List (Instr × Scope)), ready row.1 s →
        exec row.1 s = .next (block s (.fence row.2)))

/-- 11 R281, R282, R284: CFLUSH, CINV and ICINV take one operand log entry that walks the lines of their range; an empty range
does nothing; a poisoned operand is POISON_CONSUMED, a range of more than 2,097,152 bytes ACCESS_VIOLATION with detail 0x40;
PREF, of any length, prefetches the lines of the first 2,097,152 bytes and goes on.
03 R90, 11 R282: on one line, with its page in the TLB and no other entry in the log: ICINV removes the line from the
instruction cache of every core of the package; CFLUSH and CINV of a dirty local line write it to Spaind memory and leave it
clean, of a clean one nothing. A remote line in M or O is given up by a write-back of all its bytes; one in E or S is dropped by
CINV, and left by CFLUSH. Of the untracked copy of the own context, CFLUSH writes the bytes of DMASK back and clears DMASK; CINV
drops it, and its dirty bytes are lost. Of an absent line nothing. CINV drops the core's L1 copies too. The word has then
completed, and frees its entry, but where it sent a write-back, for which the entry waits. -/
def Obligations.CacheRanges : Prop :=
  (∀ (s : State) (a : SReg) (b : Option SReg),
      let t := s.cur
      let x := t.getS a
      let len : SVal := match b with
        | none => ⟨1, false⟩
        | some r => t.getS r
      let e (op : MemOp) : LogEntry := { id := t.nextEntry, insn := s.iw, pc := t.pc, op := op, dst := .none, scalar := true
                                         sup := t.mode == .sup, active := 1, performed := 0, flight := 0, faults := []
                                         moving := 0, held := false, addrs := [x.v], data := [0], dataP := 0, next := x.v.toNat
                                         stop := x.v.toNat + len.v.toNat, wbs := [], desc := 0, win := [] }
      (∀ row ∈ ([(.cflush a b, .cflush), (.cinv a b, .cinv), (.icinv a b, .icinv)] : List (Instr × MemOp)), ready row.1 s →
        ((x.p || len.p) = true → noneOlder s → exec row.1 s = .next (takeTrap s ⟨POISON_CONSUMED, 0, 0⟩ t.pc s.iw none))
        ∧ ((x.p || len.p) = false → 2097152 < len.v.toNat → noneOlder s →
          exec row.1 s = .next (takeTrap s ⟨ACCESS_VIOLATION, 0x40, 0⟩ t.pc s.iw none))
        ∧ ((x.p || len.p) = false → len.v = 0 → exec row.1 s = .next (retire s s))
        ∧ ((x.p || len.p) = false → 0 < len.v.toNat → len.v.toNat ≤ 2097152 → exec row.1 s = .next (if 8 ≤ t.log.length then hold s
          else retire s (pumpLog none { s with cur := { t with log := t.log ++ [e row.2], nextEntry := t.nextEntry + 1 } }))))
      ∧ (ready (.pref a b) s → (x.p || len.p) = false →
          let n := min len.v.toNat 2097152
          let first := x.v.toNat / 128
          let count := if n = 0 then 0 else (x.v.toNat + n - 1) / 128 + 1 - first
          exec (.pref a b) s = .next (retire s (((List.range count).map fun k => 128 * (first + k)).foldl prefetchLine s))))
  ∧ (∀ (s : State) (a : SReg) (e : TlbEnt) (l : L2Line),
      let t := s.cur
      let va := (t.getS a).v
      let slot := s.slotOf t
      let pa := e.phys va.toNat
      let done (r : State) : State := { r with cur := { r.cur with nextEntry := t.nextEntry + 1 } }
      t.log = [] → (t.getS a).p = false → va.toNat < 2 ^ 57 →
      (s.core t.core).tlb.find? (fun e => e.covers slot va.toNat) = some e → (t.mode = .sup ∨ e.u = true) →
      (ready (.icinv a none) s → exec (.icinv a none) s = .next (retire s (done { s with
          cores := s.cores.map fun k => { k with icache := k.icache.filter fun x => x.1 != pa / 128 } })))
      ∧ (replayFull s t.core = false → t.core < s.cores.length →
          (∀ x ∈ (s.core t.core).sb, x.line ≠ pa / 128 ∧ x.va / 128 ≠ va.toNat / 128) →
          let line := pa / 128
          let own : State := s.modCore t.core fun k => { k with l1 := k.l1.filter fun x => x.line != line }
          let tracked := s.l2get line none
          let untracked := s.l2get line (some slot)
          let without (u : Option Nat) : List L2Line := s.l2.filter fun x => !x.is line u
          let runs (j : Instr) (P : State → Prop) : Prop := ready j s → ∃ r, exec j s = .next (retire s r) ∧ r.mem = s.mem
            ∧ r.threads = s.threads ∧ r.teams = s.teams ∧ { r.cur with log := [], nextEntry := t.nextEntry } = t ∧ P r
          let writesBack (r : State) (kind : HomeKind) (mask : LineMask) (unt : Bool) (L : L2Line) : Prop := ∃ q, r.reqs = [q]
            ∧ q.kind = kind ∧ q.line = line ∧ q.ended = false ∧ q.waits = false
            ∧ q.req = ⟨s.seq, s.self, line, false, L.data, mask, L.psn, none, unt⟩ ∧ r.cur.log.map LogEntry.wbs = [[s.seq]]
            ∧ r.outbox = (if pathsTo s (spanId s) (lineEp line) = [] then s.outbox else .home (lineEp line) kind q.req :: s.outbox)
          (isLocal s line = true → (∀ r ∈ s.reqs, r.line ≠ line) → tracked = some l → untracked = none →
            let put (z : State) : State :=
              if l.st = .dirty then (memPut z line l.data).l2mod line none fun x => { x with st := .clean } else z
            (ready (.cflush a none) s → exec (.cflush a none) s = .next (retire s (done (put s))))
            ∧ (ready (.cinv a none) s → exec (.cinv a none) s = .next (retire s (done (put own)))))
          ∧ (isLocal s line = false → s.reqs = [] →
            (untracked = none → tracked = none →
              (ready (.cflush a none) s → exec (.cflush a none) s = .next (retire s (done s)))
              ∧ (ready (.cinv a none) s → exec (.cinv a none) s = .next (retire s (done own))))
            ∧ (untracked = none → tracked = some l → l.st = .e ∨ l.st = .s →
              (ready (.cflush a none) s → exec (.cflush a none) s = .next (retire s (done s)))
              ∧ (l.exp ≤ s.now → runs (.cinv a none) fun r => r.l2 = without none ∧ r.cores = own.cores ∧ r.reqs = []
                ∧ r.outbox = s.outbox ∧ r.cur.log = []))
            ∧ (untracked = none → tracked = some l → l.st = .m ∨ l.st = .o → l.exp ≤ s.now →
              runs (.cflush a none) (fun r => r.l2 = without none ∧ r.cores = s.cores ∧ writesBack r .wbk fullMask false l)
              ∧ runs (.cinv a none) (fun r => r.l2 = without none ∧ r.cores = own.cores ∧ writesBack r .wbk fullMask false l))
            ∧ (∀ dm, tracked = none → untracked = some l → l.unt = some (slot, dm) →
              (l.exp ≤ s.now → ready (.cinv a none) s →
                exec (.cinv a none) s = .next (retire s (done { own with l2 := without (some slot) })))
              ∧ (dm = 0 → ready (.cflush a none) s → exec (.cflush a none) s = .next (retire s (done s)))
              ∧ (dm ≠ 0 → runs (.cflush a none) fun r => writesBack r .wrf dm true l
                ∧ r.l2 = s.l2.map fun x => if x.is line (some slot) then { x with unt := some (slot, 0) } else x)))))

/-- 11 R267, R285, R286, R287, 05 R149: the remote instructions do nothing under a zero mask. Else, a poisoned operand, then an
offset that is no multiple of the size, and the first failing check of the window, whose entry the core has in its cache, of the
active lanes in ascending order, are found in this order. With operands that pass, and an entry of the operand log free, each takes
one, of the active lanes at the window's addresses, RPUTF of the lowest alone; an RPUT or an RPUTF first waits where its
destination has no entry of the stream table, or an RPUTF behind the oldest of four flags, and an RPUT whose count of a path
would overflow traps. With nothing else in the log and room in the replay buffer, RPUT sends the requests of its
lanes at once, and RPUTF, with a path to its destination, one flag, with the epoch and the counts of its stream, which then begin
afresh; the entry is then free again. Two clauses are the model's choice and not the spec's words: an entry that is being closed
counts as none (log 25), and a lane's address in TRAPADDR is its window and offset for MISALIGNED too (log 35).
05 R149, 11 R287: the acknowledgement of a flag marks it, and the oldest flags leave as far as they are acknowledged. A refused
answer faults its lanes with REMOTE_WINDOW 0x10.
01 R20, 03 R88, R89, 05 R150: a put that arrives for a loaded context with its key goes to its line, as a write of this cell; once
that is performed, or where it is refused, it is acknowledged and counts in its epoch on its path. A flag waits for its four
counts, goes to its line in turn, and closes its epoch; a get is answered with the bytes that it names, an atomic, performed at the
home, with the old value; a close drops the counts of its epoch. A request of a source that is dead or cut off is discarded. That a
write reaches its slice a tick later is the model's choice (log 2). -/
def Obligations.RemoteIssue : Prop :=
  (∀ (s : State) (d : VReg) (a : SReg) (b : XOpnd) (words : List Dword),
     let t := s.cur
     let desc := (t.getS a).v
     let win := (desc.extractLsb' 0 6).toNat
     let slot := s.slotOf t
     let low := (List.range 96).find? fun L => t.mask.getLsbD L
     let off (L : Nat) : Nat := (t.getX64 b L).v.toNat
     let at_ (off : Nat) : Dword := BitVec.ofNat 64 (win * 2 ^ 58 + off % 2 ^ 58)
     let act := lanesOf t.mask
     let grid := ((s.gridOf t).map Grid.id).getD 0
     let cached := (s.core t.core).rwc.find? (fun r => r.1 == slot && r.2.1 == win) = some (slot, win, words)
     (∀ j ∈ ([.rput d a b, .rputf d a b, .rget d a b, .ratom d a b] : List Instr), ready j s → t.mask = 0 →
         exec j s = .next (retire s s))
     ∧ (∀ row ∈ ([(.rput d a b, 4, 2, false), (.rputf d a b, 8, 2, false), (.rget d a b, 4, 1, false),
         (.ratom d a b, 8, 3, true)] : List (Instr × Nat × Nat × Bool)),
       let (j, n, right, ops) := row
       ready j s → t.mask ≠ 0 → noneOlder s →
         (((t.getS a).p = true ∨ ∃ L ∈ act, (t.getX64 b L).p = true) →
           exec j s = .next (takeTrap s ⟨POISON_CONSUMED, 0, 0⟩ t.pc s.iw none))
         ∧ ((t.getS a).p = false → (∀ L ∈ act, (t.getX64 b L).p = false) →
           (∀ L ∈ act, off L % n ≠ 0 → (∀ K ∈ act, K < L → off K % n = 0) →
             exec j s = .next (takeTrap s ⟨MISALIGNED, 0, at_ (off L)⟩ t.pc s.iw none))
           ∧ ((∀ L ∈ act, off L % n = 0) → cached →
             ∀ code o, windowCheck desc words right ops (act.map off) n = some (code, o) →
               exec j s = .next (takeTrap s ⟨REMOTE_WINDOW, code, at_ o⟩ t.pc s.iw none))))
     ∧ ((t.getS a).p = false → t.mask ≠ 0 → (∀ L ∈ act, (t.getX64 b L).p = false) → cached →
       let w (k : Nat) : Dword := words.getD k 0
       let legal (n right : Nat) (ops : Bool) : Prop :=
         desc.extractLsb' 6 2 = 0 ∧ desc.extractLsb' 12 52 = 0
         ∧ (if ops then (desc.extractLsb' 8 4).toNat ≤ 6 else desc.extractLsb' 8 4 = 0)
         ∧ (w 0).getLsbD 0 = true ∧ (w 0).getLsbD right = true ∧ (w 0).extractLsb' 4 4 = 0 ∧ (w 0).extractLsb' 44 20 = 0
         ∧ (w 1).extractLsb' 57 7 = 0 ∧ (w 2).extractLsb' 57 7 = 0 ∧ (w 3).extractLsb' 32 32 = 0
         ∧ ∀ L ∈ act, off L % n = 0 ∧ off L + n ≤ ((w 2).extractLsb' 0 57).toNat
       let e (op : MemOp) (dst : Dst) (active : LaneMask) (regs : Nat) : LogEntry :=
         { id := t.nextEntry, insn := s.iw, pc := t.pc, op := op, dst := dst, scalar := false, sup := t.mode == .sup
           active := active, performed := 0, flight := 0, faults := [], moving := 0, held := false
           addrs := (List.range 96).map fun L => at_ (if t.mask.getLsbD L then off L else 0)
           data := (List.range 96).map fun L => BitVec.ofNat 128 (laneData t d regs L).1
           dataP := lanesWhere fun L => (laneData t d regs L).2, next := 0, stop := 0, wbs := [], desc := desc, win := words }
       let sent (x : LogEntry) : State :=
         retire s (pumpLog none { s with cur := { t with log := t.log ++ [x], nextEntry := t.nextEntry + 1 } })
       let op : AtomOp := ([AtomOp.add, .swap, .and, .or, .xor, .min, .max]).getD (desc.extractLsb' 8 4).toNat .max
       let dst (n : Nat) : Dst := .vec (t.wbase + d.val) n
       let found := (s.ctx slot).streams.find? fun x => x.is (winDspan words) (winDpkg words) (winDctx words)
       let stream : Option StreamEnt := match found with
         | some x => if x.closing = none then some x else none
         | none => if (s.ctx slot).streams.length < 64
             then some ⟨winDspan words, winDpkg words, winDctx words, 0, [0, 0, 0, 0], 0, [], none⟩ else none
       let blocks := blocksOf (winBase words) (act.map fun L => (L, off L))
       (t.log.length < 8 →
         (ready (.rget d a b) s → legal 4 1 false → exec (.rget d a b) s = .next (sent (e .rget (dst 1) t.mask 0)))
         ∧ (ready (.ratom d a b) s → legal 8 3 true → exec (.ratom d a b) s = .next (sent (e (.ratom op) (dst 2) t.mask 2)))
         ∧ (∀ ent, stream = some ent →
           (ready (.rput d a b) s → legal 4 2 false → countsOverflow s ent blocks.length = false →
             exec (.rput d a b) s = .next (sent (e .rput .none t.mask 1)))
           ∧ (∀ L, low = some L → ready (.rputf d a b) s → legal 8 2 false → ent.flags.length < 4 →
             exec (.rputf d a b) s = .next (sent (e .rputf .none (BitVec.ofNat 96 (2 ^ L)) 2)))))
       ∧ (ready (.rput d a b) s → legal 4 2 false →
         (stream = none → exec (.rput d a b) s = .next (block s (.streamTable win)))
         ∧ (∀ ent L, stream = some ent → low = some L → countsOverflow s ent blocks.length = true → noneOlder s →
           exec (.rput d a b) s = .next (takeTrap s ⟨REMOTE_WINDOW, 3, at_ (off L)⟩ t.pc s.iw none)))
       ∧ (ready (.rputf d a b) s → legal 8 2 false → (∀ ent, stream = some ent → 4 ≤ ent.flags.length) →
         exec (.rputf d a b) s = .next (block s (.streamTable win)))
       ∧ (∀ ent, found = some ent → ent.closing = none → t.log = [] → replayFull s t.core = false →
         beyondCell s (winDspan words) (winDpkg words) = false →
         let u : Thread := { t with nextEntry := t.nextEntry + 1 }
         (ready (.rput d a b) s → legal 4 2 false → countsOverflow s ent blocks.length = false →
           exec (.rput d a b) s = .next (retire s { sendPuts s slot win words grid (fun L => t.getV d L) blocks with cur := u }))
         ∧ (∀ L, low = some L → ready (.rputf d a b) s → legal 8 2 false → ent.flags.length < 4 →
           pathsTo s (winDspan words) (winDpkg words) ≠ [] → ∃ r, exec (.rputf d a b) s = .next (retire s r) ∧ r.cur = u ∧ r.mem = s.mem
             ∧ r.outbox = .flag (winDspan words) (winDpkg words) ⟨s.seq, ⟨spanId s, s.self, (s.ctx slot).num⟩, winDctx words,
               winKey words, winBase words + off L, (t.getV2 d L).v,
               (t.getV2 d L).p && !carriesPoison 8 (t.getV2 d L).v.toNat, ent.epoch, ent.counts⟩ :: s.outbox
             ∧ (r.ctx slot).streams = (s.ctx slot).streams.map fun x =>
               if x.is (winDspan words) (winDpkg words) (winDctx words)
               then { x with counts := [0, 0, 0, 0], epoch := x.epoch + 1, flags := x.flags ++ [(s.seq, false)] } else x))))
  ∧ (∀ (e : StreamEnt) (first : Nat) (rest : List (Nat × Bool)) (id : Nat), e.flags = (first, false) :: rest →
      (id ≠ first → (e.ackFlag id).flags.map Prod.fst = e.flags.map Prod.fst)
      ∧ ((∀ f ∈ rest, f.2 = false ∧ f.1 ≠ first) → (e.ackFlag first).flags = rest)
      ∧ ({ e.ackFlag id with flags := e.flags } = e))
  ∧ (∀ (s : State) (a : RemoteAns) (r : OutReq) (uid entry : Nat) (lanes : LaneMask),
      (s.reqs.find? fun q => q.id == a.id && !q.ended) = some r → r.for_ = .lanes uid entry lanes → a.ok = false →
      remoteAnswer s a = ({ s with reqs := s.reqs.filter fun q => q.id != r.id }).modThread uid fun t =>
        { t with log := t.log.map fun (e : LogEntry) => if e.id == entry then e.fault lanes REMOTE_WINDOW 0x10 else e })
  ∧ (∀ (s : State) (r : OutReq) (id slot span pkg dctx path : Nat) (epoch : BitVec 8),
      (s.reqs.find? fun q => q.id == id) = some r → r.for_ = .close slot span pkg dctx epoch path →
      slot < s.ctxs.length → ∀ x, x ∈ ((closeAck s id).ctx slot).streams ↔
        x ∈ (s.ctx slot).streams ∧ ¬ (x.is span pkg dctx = true ∧ x.closing = some id))
  ∧ (∀ (s : State) (pm : PutMsg) (fm : FlagMsg) (gm : GetMsg) (am : RAtomMsg) (src : StreamId) (dctx slot id pa : Nat) (e : BitVec 8)
      (cen : Bool), s.up →
      let counts (z : State) (src : StreamId) (c : Nat) (e : BitVec 8) : List Nat :=
        ((z.epochs.find? fun y => y.src == src && y.dctx == c && y.epoch == e).map DestEpoch.counts).getD [0, 0, 0, 0]
      let others (c : Nat) (key : Word) : Prop := ∀ j, (s.ctx j).status = .loaded → (s.ctx j).num = c → (s.ctx j).key ≠ key
      let ours (c : Nat) (key : Word) : Prop := slot < 64 ∧ (s.ctx slot).status = .loaded ∧ (s.ctx slot).num = c
        ∧ (s.ctx slot).key = key ∧ ∀ j, j < 64 → (s.ctx j).num = c → (s.ctx j).status ≠ .unknown → j = slot
      let job (j : RemoteJob) : State := { s with jobs := s.jobs ++ [(s.seq, j, 0)], seq := s.seq + 1 }
      let found (j : RemoteJob) (va : Nat) : Prop :=
        xlatNow (job j) 0 slot (BitVec.ofNat 64 va) .write false = (.ok pa cen, job j)
      let begins (i : Instr) (j : RemoteJob) (va : Nat) (data : LineData) (mask : LineMask) (psn : Bool) (atom : Option AtomReq) : Prop :=
        ∃ r, exec i s = .next r ∧ r.jobs = s.jobs ++ [(s.seq, j, 0)] ∧ r.outbox = s.outbox ∧ r.epochs = s.epochs ∧ r.mem = s.mem
          ∧ r.l2w = s.l2w ++ [⟨s.seq + 1, pa / 128, slot, inWindow (s.ctx slot) va, cen, data, mask, psn, atom, s.now + 1,
              .remote s.seq, va / 128 * 128, false, false, !isHost s (lineEp (pa / 128))⟩]
          ∧ (s.now + 1, .l2WritePerform (s.seq + 1)) ∈ r.agenda
      let ends (i : Instr) (tag : Nat) (m : OutMsg) (P : State → Prop) : Prop := ∃ r, exec i s = .next r
        ∧ r.jobs = s.jobs.filter (fun j => j.1 != tag) ∧ r.outbox = m :: s.outbox ∧ r.mem = s.mem ∧ r.l2w = s.l2w ∧ P r
      let closed (src : StreamId) (c : Nat) (e : BitVec 8) : List DestEpoch :=
        s.epochs.filter fun y => !(y.src == src && y.dctx == c && y.epoch == e)
      let counted (r : State) : Prop := let old := counts s pm.src pm.dctx pm.epoch
        counts r pm.src pm.dctx pm.epoch = old.set pm.path.val (old.getD pm.path.val 0 + 1)
        ∧ ∀ x c e, ¬ (x = pm.src ∧ c = pm.dctx ∧ e = pm.epoch) → counts r x c e = counts s x c e
      let closes (r : State) : Prop := r.epochs = closed fm.src fm.dctx fm.epoch
      let off := pa % 128
      (shunnedSrc s pm.src = false →
        ((∀ x ∈ s.jobs, x.2.1 ≠ .put pm) →
          (others pm.dctx pm.key → ends (.rputDelivery pm) s.seq (.remoteAck pm.src pm.id false) counted)
          ∧ (ours pm.dctx pm.key → found (.put pm) pm.va → begins (.rputDelivery pm) (.put pm) pm.va
            (lineAt off 64 pm.data.toNat) (pm.mask.zeroExtend 128 <<< off) pm.psn none))
        ∧ (∀ tag k, k = 1 ∨ k = 2 → (tag, .put pm, k) ∈ s.jobs → (∀ x ∈ s.jobs, x.2.1 = .put pm → x = (tag, .put pm, k)) →
          ends (.rputDelivery pm) tag (.remoteAck pm.src pm.id (k == 1)) counted))
      ∧ (shunnedSrc s fm.src = false →
        ((∀ x ∈ s.jobs, x.2.1 ≠ .flag fm) →
          (counts s fm.src fm.dctx fm.epoch ≠ fm.counts → exec (.rputfDelivery fm) s = .next (job (.flag fm)))
          ∧ (counts s fm.src fm.dctx fm.epoch = fm.counts →
            (others fm.dctx fm.key → ends (.rputfDelivery fm) s.seq (.remoteAck fm.src fm.id false) closes)
            ∧ (ours fm.dctx fm.key → found (.flag fm) fm.va → begins (.rputfDelivery fm) (.flag fm) fm.va
              (lineAt off 8 fm.data.toNat) (0xFF <<< off) fm.psn none)))
        ∧ (∀ tag k, k = 1 ∨ k = 2 → (tag, .flag fm, k) ∈ s.jobs → (∀ x ∈ s.jobs, x.2.1 = .flag fm → x = (tag, .flag fm, k)) →
          ends (.rputfDelivery fm) tag (.remoteAck fm.src fm.id (k == 1)) closes))
      ∧ (shunnedSrc s gm.src = false →
        let answer (ok : Bool) (v : Nat) (psn : Bool) : OutMsg := .remoteAns gm.src ⟨gm.id, ok, BitVec.ofNat 512 v, psn⟩
        (others gm.dctx gm.key → exec (.rgetDelivery gm) s = .next { s with outbox := answer false 0 false :: s.outbox })
        ∧ (ours gm.dctx gm.key → ∀ r,
          (∀ v psn, devRead s 0 slot false (BitVec.ofNat 64 gm.va) 64 = (.ok v psn, r) →
            exec (.rgetDelivery gm) s = .next { r with outbox := answer true v psn :: r.outbox })
          ∧ (∀ x, devRead s 0 slot false (BitVec.ofNat 64 gm.va) 64 = (.fault x, r) →
            exec (.rgetDelivery gm) s = .next { r with outbox := answer false 0 false :: r.outbox })))
      ∧ (shunnedSrc s am.src = false →
        let answer (ok : Bool) (v : Dword) (psn : Bool) : OutMsg := .remoteAns am.src ⟨am.id, ok, v.zeroExtend 512, psn⟩
        let same (a : RAtomMsg) : Prop := a.id = am.id ∧ a.src = am.src
        ((∀ x ∈ s.jobs, ∀ a, x.2.1 = .atom a → ¬ same a) →
          (others am.dctx am.key → ends (.ratomDelivery am) s.seq (answer false 0 false) fun r => r.epochs = s.epochs)
          ∧ (ours am.dctx am.key → found (.atom am) am.va → begins (.ratomDelivery am) (.atom am) am.va (lineAt off 8 0) 0 am.psn
            (some ⟨am.op, off, 8, am.opnd, 0, am.psn⟩)))
        ∧ (∀ tag k a, k = 1 ∨ k = 2 → (tag, .atom a, k) ∈ s.jobs → same a →
          (∀ x ∈ s.jobs, ∀ b, x.2.1 = .atom b → same b → x = (tag, .atom a, k)) →
          ends (.ratomDelivery am) tag (if k = 1 then answer true a.opnd a.psn else answer false 0 false) fun r => r.epochs = s.epochs))
      ∧ exec (.epochClose src dctx e id) s = .next (if shunnedSrc s src = true then s
          else { s with epochs := closed src dctx e, outbox := .closeAck src id :: s.outbox })
      ∧ ∀ row ∈ ([(.rputDelivery pm, pm.src), (.rputfDelivery fm, fm.src), (.rgetDelivery gm, gm.src), (.ratomDelivery am, am.src)] :
          List (Instr × StreamId)), shunnedSrc s row.2 = true → ∃ r, exec row.1 s = .next r ∧ { r with jobs := s.jobs } = s)


/-! ### Waits, launches, copies, the matrix engine and user interrupts (09, 12, 13) -/

/-- 09 R232 to R235, 06 R160: WAIT. Its pairs are checked at issue in their order: a poisoned word, a bit set that must be zero or
a kind that is none (ILLEGAL_INSN 7), a sync word without contents, a word that is not aligned; then a poisoned timeout; the first
that fails traps. The pairs are then evaluated in their order, here by a thread with an empty log: an aborted watermark, of kind 2
or over the word of kind 3 or 6, a fault of the word's read and a poisoned word trap. With the conditions satisfied, any of them
or with ALL every one, it goes on with TMO 0; else with no ticks left it goes on with TMO 1; else it blocks, to be looked at again
within 64 ticks and when its ticks are over. Kind 0 never ends a wait and holds none up; 1 asks for another phase of a sync word;
2 for a watermark that is idle, done or has reached the value; 4 for a user interrupt; 5 for a tick; 3 and 6, here on words of
this package that are read without an L2 miss, for another value, and for bit 0 set; while the replay buffer of the core is full
(11 R268) such a word is not read, and the WAIT waits with nothing changed. A tick that kind 5 asks for is looked at when it comes.
That a word which a watermark holds counts as
not satisfied is the model's choice (log 89), and so is the bound of 64 ticks (log 2). -/
def Obligations.Waits : Prop :=
  ∀ (s : State) (d a : SReg) (n : Fin 4) (all : Bool) (word : Nat → Nat),
    let t := s.cur
    let j : Instr := .wait d a n all
    let param (i : Nat) : SVal := t.getRun d (2 * i)
    let value (i : Nat) : SVal := t.getRun d (2 * i + 1)
    let kind (i : Nat) : Nat := ((param i).v.extractLsb' 60 4).toNat
    let low (i lo len : Nat) : Nat := ((param i).v.extractLsb' lo len).toNat
    let pairs := List.range (n.val + 1)
    let mark (i : Nat) : Watermark := (s.marksOf t.team).getD (low i 0 4) Watermark.idle
    let sync (i : Nat) : Dword := BitVec.ofNat 64 (low i 0 32)
    let at_ (i : Nat) : Dword := BitVec.ofNat 64 (low i 0 57)
    let held (i : Nat) : Held := heldBy (s.marksOf t.team) 0 0 (low i 0 57) 8
    let gen (i : Nat) : Nat := match scratchAddr s t.team (sync i) 8 with
      | .ok (team, off) => match s.team? team with
        | some m => if m.exited then 0 else Mem.load m.scratch off 8 / 2 % 65536
        | none => 0
      | .error _ => 0
    let sat (i : Nat) : Bool := match kind i with
      | 0 => all
      | 1 => gen i != (value i).v.toNat % 65536
      | 2 => (mark i).state == 0 || (mark i).state == 3 || decide ((value i).v.toNat ≤ (mark i).mark)
      | 4 => (s.ctxOf t).ui.pend &&& (s.ctxOf t).ui.mask &&& (if (value i).v = 0 then BitVec.allOnes 64 else (value i).v) != 0
      | 5 => decide ((value i).v.toNat ≤ s.now)
      | 3 => held i == .free && word (low i 0 57) != (value i).v.toNat
      | _ => held i == .free && word (low i 0 57) % 2 == 1
    let reserved (i : Nat) : Prop := match kind i with
      | 0 | 4 | 5 => low i 0 60 ≠ 0
      | 1 => low i 32 28 ≠ 0
      | 2 => low i 4 56 ≠ 0
      | 3 | 6 => low i 57 3 ≠ 0
      | _ => True
    let poisoned (i : Nat) : Prop := (param i).p = true ∨ (value i).p = true
    let unaligned (i : Nat) : Prop := (kind i = 3 ∧ low i 0 3 ≠ 0) ∨ (kind i = 6 ∧ low i 0 6 ≠ 0)
    let synced (i : Nat) : Prop := kind i = 1 → ∃ x, scratchAddr s t.team (sync i) 8 = .ok x ∧ x.2 % 8 = 0
    let fine (i : Nat) : Prop := ¬ poisoned i ∧ ¬ reserved i ∧ ¬ unaligned i ∧ synced i
    let first (i : Nat) (P : Nat → Prop) : Prop := i ∈ pairs ∧ ∀ k, k < i → P k
    let traps (x : Trap) : Prop := exec j s = .next (takeTrap s x t.pc s.iw none)
    let full : Prop := t.core < s.cores.length ∧ replayFull s t.core = true
    let mapped (i : Nat) : Prop := ¬ full ∧ ∃ pa c, xlatNow s (dieOf t.core) (s.slotOf t) (at_ i) .read false = (.ok pa c, s)
      ∧ isLocal s (pa / 128) = true
    let read (i : Nat) : Prop := (kind i = 2 → (mark i).state ≠ 4) ∧ ((kind i = 3 ∨ kind i = 6) → mapped i
      ∧ (held i = .wait ∨ (held i = .free
        ∧ coreRead s t.core (s.slotOf t) false (low i 0 57) 8 = (.ok (word (low i 0 57)) false, s))))
    let met : Bool := if all then pairs.all sat else pairs.any sat
    let left := (t.getS a).v.toNat
    let timed (b : Bool) : Thread := { t with cc := { t.cc with tmo := b } }
    ready j s →
      (noneOlder s → ∀ i, first i fine →
        (poisoned i → traps ⟨POISON_CONSUMED, 0, 0⟩)
        ∧ (¬ poisoned i → reserved i → traps ⟨ILLEGAL_INSN, 7, t.pc⟩)
        ∧ (¬ poisoned i → ¬ reserved i →
          (kind i = 1 → ∀ c, scratchAddr s t.team (sync i) 8 = .error c → traps ⟨ACCESS_VIOLATION, c, sync i⟩)
          ∧ (kind i = 1 → ∀ x, scratchAddr s t.team (sync i) 8 = .ok x → x.2 % 8 ≠ 0 → traps ⟨MISALIGNED, 0, sync i⟩)
          ∧ (unaligned i → traps ⟨MISALIGNED, 0, at_ i⟩)))
      ∧ (noneOlder s → (∀ i ∈ pairs, fine i) → (t.getS a).p = true → traps ⟨POISON_CONSUMED, 0, 0⟩)
      ∧ ((∀ i ∈ pairs, fine i) → (t.getS a).p = false → t.log = [] →
        (∀ i, first i read → ∀ (x : Trap),
          (kind i = 2 → (mark i).state = 4 → traps ⟨COPY_ABORTED, 0, BitVec.ofNat 64 (mark i).mark⟩)
          ∧ (kind i = 3 ∨ kind i = 6 →
            (full → exec j s = .next (hold s))
            ∧ (¬ full → xlatNow s (dieOf t.core) (s.slotOf t) (at_ i) .read false = (.fault x, s) → traps x)
            ∧ (mapped i → (∀ b, held i = .aborted b → traps ⟨COPY_ABORTED, 0, BitVec.ofNat 64 b⟩)
              ∧ (held i = .free →
                (coreRead s t.core (s.slotOf t) false (low i 0 57) 8 = (.fault x, s) → traps x)
                ∧ (∀ v, coreRead s t.core (s.slotOf t) false (low i 0 57) 8 = (.ok v true, s) → traps ⟨POISON_CONSUMED, 0, 0⟩)))))
        ∧ ((∀ i ∈ pairs, read i) →
          (met = true → t.acq ≠ some true → exec j s = .next (retire s { s with cur := { timed false with acq := none } }))
          ∧ (met = false → left = 0 → exec j s = .next (retire s { s with cur := timed true }))
          ∧ (met = false → left ≠ 0 → ∃ r, exec j s = .next r ∧ r.cur = { t with
                wait := .wait (pairs.map fun i => ((param i).v, (value i).v)) all left s.now, stall := true }
              ∧ (∃ e ∈ r.agenda, e.1 ≤ s.now + min 64 left ∧ e.2 = .waitEvaluate t.uid
                ∧ ∀ i ∈ pairs, kind i = 5 → s.now < (value i).v.toNat → e.1 ≤ (value i).v.toNat)
              ∧ (left ≠ 2 ^ 64 - 1 → (s.now + left, .waitTimeout t.uid) ∈ r.agenda) ∧ { r with cur := t, agenda := s.agenda } = s)))

/-- 09 R237, 06 R161, 15 R343, R351: LAUNCH, with its release complete, takes its place behind the LAUNCHes whose releases completed
before; it waits for those, and while 64 requests of the context are before it, or the replay buffer of its core is full (11 R268); then it reads the launch record and gives the
handle of the new grid, or takes the fault that the record has, and waits behind a watermark of its team that holds a byte of the
record or of its blocks (04 R105); without the right to launch it is PRIV_VIOLATION, at an address
that is no multiple of 64 MISALIGNED. SWRP of FQCMD disposes of the held fault that its word
names.
06 R166, R171, 17 R373: a store to a launch port of a known context takes a place in it when no command is in progress there, its
reserved bits are zero, the toll table admits the endpoint, and fewer than 64 requests are before it; a full one waits, and one
not admitted counts in DROPS. A parked context's requests wait. The oldest request of a loaded one is accepted, or refused: then
DONE, ERR and ECODE are written where its completion block is known, and the host hears of it; so is a graph of a wrong header. A
grid at its end goes through its actions in their order: the fence, whose outcomes make ERR and ECODE; word 0 of its completion
block; the arrival at its sync word; its stamp; its interrupt; one with ERR ends after word 0. A node of a graph that ends is
noted, and with ERR ends the nodes behind it; the graph's own block is written last. -/
def Obligations.Launches : Prop :=
  (∀ (s : State) (d a : SReg),
      let t := s.cur
      let x := t.getS a
      let slot := s.slotOf t
      let right : Bool := match s.gridOf t with
        | some g => g.r.lr || g.port
        | none => false
      (ready (.launch d a) s → noneOlder s →
        (x.p = true → exec (.launch d a) s = .next (takeTrap s ⟨POISON_CONSUMED, 0, 0⟩ t.pc s.iw none))
        ∧ (x.p = false → x.v.extractLsb' 0 6 ≠ 0 → exec (.launch d a) s = .next (takeTrap s ⟨MISALIGNED, 0, x.v⟩ t.pc s.iw none))
        ∧ (x.p = false → x.v.extractLsb' 0 6 = 0 →
          (right = false → exec (.launch d a) s = .next (takeTrap s ⟨PRIV_VIOLATION, 0, t.pc⟩ t.pc s.iw none))
          ∧ (right = true → ∀ s1 : State,
            ((s.ctx slot).launches.contains t.uid = true ∧ s1 = s)
              ∨ ((s.ctx slot).launches.contains t.uid = false ∧ release .span s = (true, s) ∧ (s.ctx slot).pdeny = none
                ∧ s1 = s.modCtx slot fun c => { c with launches := c.launches ++ [t.uid] }) →
            let c := s1.ctx slot
            let before := (c.launches.findIdx? fun u => u == t.uid).getD 0
            let leaves (r : State) : State :=
              (r.modCtx slot fun c => { c with launches := c.launches.filter fun u => u != t.uid }).wake
            (64 ≤ c.lport.length + c.ports.length + before → exec (.launch d a) s = .next (block s1 .launch))
            ∧ (c.lport.length + c.ports.length + before < 64 → before ≠ 0 ∨ replayFull s t.core = true →
              exec (.launch d a) s = .next (hold s1))
            ∧ (c.lport.length + c.ports.length < 64 → before = 0 → replayFull s t.core = false →
              (∀ g r, launchAt s1 slot (dieOf t.core) (s1.marksOf t.team) x.v false = (.ok g, r) → r.cur = t →
                exec (.launch d a) s = .next (retire s { addGrid (leaves r) g with cur := writeS t d ⟨g.r.cblk, false⟩ }))
              ∧ (∀ f n r, launchAt s1 slot (dieOf t.core) (s1.marksOf t.team) x.v false = (.refused f n, r) → r.cur = t →
                exec (.launch d a) s = .next (takeTrap (leaves r) f t.pc s.iw none))
              ∧ (∀ w r m, launchAt s1 slot (dieOf t.core) (s1.marksOf t.team) x.v false = (.held w, r) → r.cur = t →
                r.team? t.team = some m → exec (.launch d a) s = .next (block r (.watermark m.member w)))
              ∧ (∀ r, launchAt s1 slot (dieOf t.core) (s1.marksOf t.team) x.v false = (.pending, r) → r.cur = t →
                exec (.launch d a) s = .next (hold r))))))
      ∧ (ready (.swrp .fqcmd a) s → x.p = false → exec (.swrp .fqcmd a) s = .next (retire s (fqDispose s x.v))))
  ∧ (∀ (s : State) (slot ep : Nat) (w : Dword) (rest : List Dword) (g : Grid), s.up → slot < s.ctxs.length → slot < 64 →
      let c := s.ctx slot
      let port (z : State) : List Dword := (z.ctx slot).lport
      let due (z : State) (i : Instr) : Prop := ∃ e ∈ z.agenda, e.1 ≤ s.now ∧ e.2 = i
      let came : State := s.modCtx slot fun c => { c with ports := [⟨ep, w, .none⟩] }
      (∀ i ∈ ([.lportLaunch slot ep w, .lportGraph slot ep w] : List Instr), c.ports = [] →
        (ep ≠ s.self ∧ shunned s ep = true → ∃ z, exec i s = .next z ∧ z.ctx slot = c ∧ z.grids = s.grids ∧ z.mem = s.mem)
        ∧ (ep = s.self ∨ shunned s ep = false → ctxBusy s slot = false →
          (c.status = .unknown ∨ w.extractLsb' 1 5 ≠ 0 ∨ w.extractLsb' 57 7 ≠ 0 →
            ∃ z, exec i s = .next z ∧ z.ctx slot = c ∧ z.grids = s.grids ∧ z.mem = s.mem)
          ∧ (c.status ≠ .unknown → w.extractLsb' 1 5 = 0 → w.extractLsb' 57 7 = 0 →
            (64 ≤ c.lport.length + c.launches.length → exec i s = .next came)
            ∧ (c.lport.length + c.launches.length < 64 → ∀ ok r, tollPort came slot ep = (some ok, r) → r.ctx slot = came.ctx slot →
              r.ctxs.length = s.ctxs.length → r.now = s.now →
              (ok = true → ∃ z, exec i s = .next z ∧ port z = c.lport ++ [w] ∧ (z.ctx slot).ports = [] ∧ due z (.launchAccept slot))
              ∧ (ok = false → c.status = .loaded → ∃ z, exec i s = .next z ∧ port z = c.lport ∧ (z.ctx slot).ports = []
                ∧ (z.ctx slot).ui.drops.toNat = min (c.ui.drops.toNat + 1) 0xFFFF)))))
      ∧ (c.status = .parked → exec (.launchAccept slot) s = .next s)
      ∧ (c.status = .loaded → c.lport = w :: rest → c.refusing = none →
        let at_ := (w.extractLsb' 6 51).toNat * 64
        let refused (r : State) (code detail : Nat) (b : Dword) : Prop := r.ctxs = s.ctxs →
          (b = 0 → ∃ z, exec (.launchAccept slot) s = .next z ∧ port z = rest ∧ z.evstat.getLsbD slot = true ∧ z.mem = r.mem
            ∧ z.grids = r.grids)
          ∧ (b ≠ 0 → ∀ u, (∀ x, devWrite r 0 slot false b 8 (3 + (code + detail * 256) % 65536 * 65536) none = (.ok x, u) →
              u.ctxs = s.ctxs → ∃ z, exec (.launchAccept slot) s = .next z ∧ port z = rest ∧ z.evstat.getLsbD slot = true
                ∧ z.mem = u.mem ∧ z.grids = u.grids)
            ∧ (devWrite r 0 slot false b 8 (3 + (code + detail * 256) % 65536 * 65536) none = (.pending, u) → u.ctxs = s.ctxs →
              ∃ z x, exec (.launchAccept slot) s = .next z ∧ (z.ctx slot) = { c with refusing := some (x, b) } ∧ z.grids = u.grids))
        (w.getLsbD 0 = false →
          (∀ n r, launchAt s slot 0 [] (BitVec.ofNat 64 at_) true = (.ok n, r) → r.ctxs = s.ctxs → r.now = s.now →
            ∃ z, exec (.launchAccept slot) s = .next z ∧ port z = rest ∧ z.grids.map Grid.id = r.grids.map Grid.id ++ [n.id]
              ∧ due z (.launchAccept slot))
          ∧ (∀ t b r, launchAt s slot 0 [] (BitVec.ofNat 64 at_) true = (.refused t b, r) → refused r t.code t.detail b))
        ∧ (w.getLsbD 0 = true → ∀ h p r, zeroRead 0 slot 2 at_ 64 s = (.ok h p, r) →
          let nodes := h / 2 ^ 32 % 65536
          let block := h / 2 ^ 128 % 2 ^ 64
          (h % 2 ^ 32 ≠ 0x47524B4E ∨ nodes = 0 ∨ 4096 < nodes ∨ 16384 < h / 2 ^ 48 % 65536 ∨ h / 2 ^ 192 ≠ 0) → block % 64 = 0 →
            refused r 0x06 0x30 (BitVec.ofNat 64 block)))
      ∧ (g ∈ s.grids → (∀ x ∈ s.grids, x.id = g.id → x = g) →
        let act := exec (.gridCompletionActions g.id) s
        let goes (r : State) (y : Grid) : Prop := r.grids = s.grids → r.now = s.now →
          ∃ z, act = .next z ∧ z.grid? g.id = some y ∧ z.mem = r.mem ∧ due z (.gridCompletionActions g.id)
        (g.stage = .fence → s.reqs = [] → (∀ k ∈ s.cores, k.sb = []) → (∀ k ∈ s.ctxs, k.arrivals = []) →
          (∀ l ∈ s.l2, ∀ u, l.unt = some u → u.1 = g.slot → u.2 = 0) →
          let any (k : EndKind) : Bool := g.outcomes.any fun o => o.kind == k
          let first := if (s.ctx g.slot).pdeny.isSome then PARAPET_DENIED else if any .refused then REMOTE_WINDOW + 0x1000
            else if any .timedOut then REMOTE_TIMEOUT + 0x100 else if any .lost then HOME_LOST else 0
          goes s { g with stage := .status, err := g.err || first != 0, outcomes := []
                          ecode := if g.err then g.ecode else BitVec.ofNat 16 first })
        ∧ (g.stage = .status → ∀ x r,
          devWrite s 0 g.slot false g.r.cblk 8 (1 + 2 * g.err.toNat + 65536 * g.ecode.toNat) none = (.ok x, r) →
          (g.node = none → goes r { g with stage := if g.err then .done else .sync })
          ∧ (∀ gr n y, g.node = some (gr, n) → y ∈ s.graphs → y.id = gr → (∀ k ∈ s.graphs, k.id = gr → k = y) → r.graphs = s.graphs →
            r.grids = s.grids → ∃ z, act = .next z ∧ { y with nodes := setAt y.nodes n (if g.err then 3 else 2) } ∈ z.graphs
              ∧ (g.err = true → ∀ k ∈ s.grids, (∀ x ∈ s.grids, x.id = k.id → x = k) → k.id ≠ g.id → k.stage = .waiting →
                (∃ e ∈ y.edges, e.1 = n ∧ k.node = some (gr, e.2)) →
                z.grid? k.id = some { k with stage := .fence, err := true, ecode := 0 })))
        ∧ (g.stage = .sync → g.r.csw = false → goes s { g with stage := .stamp })
        ∧ (g.stage = .sync → g.r.csw = true → ∀ (v : Dword) r u,
          let expect := v.extractLsb' 40 23
          let count := v.extractLsb' 17 23
          let gen := v.extractLsb' 1 16
          let end_ := count + 1 = expect
          let new : Dword := (1 : BitVec 1) ++ expect ++ (if end_ then 0 else count + 1) ++ (if end_ then gen + 1 else gen) ++ v.extractLsb' 0 1
          (g.sync = none ∧ devRead s 0 g.slot false g.r.swaddr 8 = (.ok v.toNat false, r)) ∨ (g.sync = some v.toNat ∧ r = s) →
            v.getLsbD 63 = true → count < expect →
            let write := devWrite r 0 g.slot false g.r.swaddr 8 0 (some ⟨.cas, g.r.swaddr.toNat % 128, 8, v, new, false⟩)
            (write = (.ok ⟨v, false⟩, u) → goes u { g with stage := .stamp })
            ∧ (write = (.pending, u) → u.grids = s.grids → ∃ z, act = .next z ∧ z.grid? g.id = some { g with sync := some v.toNat }
              ∧ z.mem = u.mem ∧ ∃ e ∈ z.agenda, e.2 = .gridCompletionActions g.id))
        ∧ (g.stage = .stamp → g.r.cts = false → goes s { g with stage := .interrupt })
        ∧ (g.stage = .stamp → g.r.cts = true → ∀ x r, devWrite s 0 g.slot false g.r.tsaddr 8 g.r.tsval.toNat none = (.ok x, r) →
          goes r { g with stage := .interrupt })
        ∧ (g.stage = .interrupt → g.r.ciq = false → goes s { g with stage := .done })
        ∧ (g.stage = .interrupt → g.r.ciq = true →
          let r := kernelSend s g.slot g.id (g.r.kentry.toNat / 4 % 2 ^ 55) g.r.uiv g.r.uidata
          ∃ z, act = .next z ∧ z.ctxs = r.ctxs ∧ z.mem = r.mem ∧ (r.grids = s.grids → z.grid? g.id = some { g with stage := .done }))
        ∧ (g.stage = .done → act = .next { s with grids := s.grids.filter fun k => k.id != g.id })
        ∧ (g.stage = .waiting ∨ g.stage = .running → act = .next s))
      ∧ (∀ x ∈ s.graphs, (∀ y ∈ s.graphs, y.id = x.id → y = x) → (∀ y ∈ s.grids, y.id ≠ x.id) → ∀ v r,
        devWrite s 0 x.slot false x.cblk 8 (if 3 ∈ x.nodes then 3 else 1) none = (.ok v, r) →
        exec (.gridCompletionActions x.id) s = .next { r with graphs := r.graphs.filter fun y => y.id != x.id }))

/-- 12 R290, R291, 04 R114, R115, R117: SWINIT, BARA and BARD on a valid word of the own team's scratchpad, that no watermark
holds, by a thread with nothing unperformed. SWINIT sets EXPECT and MODE, with COUNT and OVR 0 and GEN as it was. BARA counts
one party, BARD takes one away from EXPECT; either ends the phase when the count then meets EXPECT: COUNT is 0 and GEN one
more; each gives the old GEN. BARA.W waits when the phase goes on. One party too many sets OVR and is BARRIER_OVERRUN; a word
that is not valid is SYNCWORD_INVALID, and nothing changes. -/
def Obligations.SyncWords : Prop :=
  ∀ (s : State) (m : Team) (d a : SReg) (off : Nat), s.team? s.cur.team = some m → (∀ x ∈ s.teams, x.id = m.id → x = m) →
    m.exited = false → s.cur.liveLog = [] →
    let t := s.cur
    let x := t.getS a
    let y := t.getS d
    x.p = false → scratchAddr s t.team x.v 8 = .ok (t.team, off) → off % 8 = 0 → heldBy m.marks 1 0 off 8 = .free →
    let w : Dword := BitVec.ofNat 64 (Mem.load m.scratch off 8)
    let mode := w.extractLsb' 63 1
    let expect := w.extractLsb' 40 23
    let count := w.extractLsb' 17 23
    let gen := w.extractLsb' 1 16
    let ovr := w.extractLsb' 0 1
    let became (w : Dword) : State := State.wake { s with teams := s.teams.map fun z =>
      if z.id = m.id then { m with scratch := Mem.store m.scratch off 8 w.toNat } else z }
    let word (mode : BitVec 1) (expect count : BitVec 23) (gen : BitVec 16) (ovr : BitVec 1) : Dword :=
      mode ++ expect ++ count ++ gen ++ ovr
    let given (r : State) : State := { r with cur := writeS r.cur d ⟨gen.zeroExtend 64, false⟩ }
    let valid := mode = 1 ∧ (count < expect ∨ count = 0 ∧ expect = 0)
    let overrun := became (w ||| 1)
    let words : List Instr := [.bara d a false, .bara d a true, .bard d a]
    (ready (.swinit a d) s → y.p = false → y.v.extractLsb' 0 40 = 0 → exec (.swinit a d) s =
        .next (retire s (became (word (y.v.extractLsb' 63 1) (y.v.extractLsb' 40 23) 0 gen 0))))
    ∧ (ready (.swinit a d) s → y.p = false → y.v.extractLsb' 0 40 ≠ 0 → exec (.swinit a d) s =
        .next (takeTrap s ⟨SYNCWORD_INVALID, 0, x.v⟩ t.pc s.iw none))
    ∧ (∀ j ∈ words, ready j s → ¬ valid → exec j s = .next (takeTrap s ⟨SYNCWORD_INVALID, 0, x.v⟩ t.pc s.iw none))
    ∧ (∀ j ∈ words, ready j s → mode = 1 → expect = 0 → count = 0 →
        exec j s = .next (takeTrap overrun ⟨BARRIER_OVERRUN, 0, x.v⟩ t.pc s.iw none))
    ∧ (∀ f, ready (.bara d a f) s → mode = 1 → count < expect → count + 1 = expect →
        exec (.bara d a f) s = .next (retire s (given (became (word 1 expect 0 (gen + 1) ovr)))))
    ∧ (mode = 1 → count < expect → count + 1 ≠ expect →
      let on := given (became (word 1 expect (count + 1) gen ovr))
      (ready (.bara d a false) s → exec (.bara d a false) s = .next (retire s on))
      ∧ (ready (.bara d a true) s → exec (.bara d a true) s = .next (block on (.bara x.v gen .core))))
    ∧ (ready (.bard d a) s → mode = 1 → count < expect → exec (.bard d a) s = .next (retire s (given (became
        (if count + 1 = expect then word 1 (expect - 1) 0 (gen + 1) ovr else word 1 (expect - 1) count gen ovr)))))

/-- 12 R292, R293, 04 R103, R107: WMRD gives the four words of a watermark; WMCLR makes one idle that is not active or frozen,
for which it waits; WMABORT aborts the copy that is bound to it, with cause 0x0C, and without one does nothing. -/
def Obligations.Watermarks : Prop :=
  ∀ (s : State) (m : Team) (d : SReg) (n : Fin 16), s.team? s.cur.team = some m → (∀ x ∈ s.teams, x.id = m.id → x = m) →
    m.marks.length = 16 →
    let t := s.cur
    let w := m.marks.getD n.val Watermark.idle
    let num (x : Nat) : Dword := BitVec.ofNat 64 x
    let word0 : Dword := w.seql ++ (w.cause : BitVec 8) ++ w.tb.zeroExtend 8 ++ w.space.zeroExtend 8 ++ w.state.zeroExtend 8
    (ready (.wmrd d n) s → d.val + 4 ≤ 29 → w.lo < 2 ^ 58 → w.hi < 2 ^ 58 → w.mark < 2 ^ 58 → exec (.wmrd d n) s =
        .next (retire s { s with cur := writeS (writeS (writeS (writeS t d ⟨word0, false⟩) (d + 1) ⟨num w.lo, false⟩)
          (d + 2) ⟨num w.hi, false⟩) (d + 3) ⟨num w.mark, false⟩ }))
    ∧ (ready (.wmclr n) s → w.state = 1 ∨ w.state = 2 → exec (.wmclr n) s = .next (block s (.watermark m.member n.val)))
    ∧ (ready (.wmclr n) s → w.state ≠ 1 → w.state ≠ 2 → exec (.wmclr n) s = .next (retire s (State.wake { s with
        teams := s.teams.map fun x => if x.id = m.id then { m with marks := m.marks.set n.val Watermark.idle } else x })))
    ∧ (ready (.wmabort n) s →
      ((∀ c ∈ s.copies, c.w = n.val → t.team ∉ c.bound s) → exec (.wmabort n) s = .next (retire s s))
      ∧ (∀ c, s.copies.find? (fun c => c.w = n.val && (c.bound s).contains t.team) = some c →
        exec (.wmabort n) s = .next (retire s (abortCopy s c.id 0x0C))))

/-- 12 R289, 04 R95, R96, R98: CPY of a group takes its coordinates from the lowest lane that is active and in the predicate;
without one it sets NL and does nothing; that NL is cleared before a control word is refused is the model's choice (log 75). Its
control word's reserved bits make it LAYOUT_INVALID, with DST and SRC as the address. With its two records read, for which the replay buffer has room, no watermark of
the team holding their bytes, the checks of R96 met and the engines claimed, it issues: its sequence number is the core's, which
goes up by one; the watermark it names, of every team it binds, is active over its range from its first byte; and the copy may
land its first unit a tick later, by the model's clock (log 2); that the issuing team is bound although the mask does not name it
is the model's choice (log 20). While such a watermark is active or frozen it waits. -/
def Obligations.CopyIssue : Prop :=
  ∀ (s : State) (c : SReg) (p : PReg) (a b : XOpnd), s.cur.stream = false → s.cur.core < 320 →
    s.slotOf s.cur < s.ctxs.length → (s.ctx (s.slotOf s.cur)).cpyseq.length = 320 →
    let t := s.cur
    let j : Instr := .cpy c p a b
    let slot := s.slotOf t
    let nl (b : Bool) : State := { s with cur := { t with cc := { t.cc with nl := b } } }
    let wants (L : Nat) : Bool := t.mask.getLsbD L && (t.getP p).v.getLsbD L
    let coord (o : XOpnd) (L i : Nat) : SVal := match o with
      | .v r => let x := t.lane (t.wbase + r.val + i) L; ⟨x.v.zeroExtend 64, x.p⟩
      | .s r => let x := t.getRun r i; ⟨(x.v.truncate 32 : Word).zeroExtend 64, x.p⟩
    let five (o : XOpnd) (L : Nat) : List SVal := (List.range 5).map (coord o L)
    let ctl := t.getS c
    let on (i : Nat) : Bool := ctl.v.getLsbD i
    let arg (i bit : Nat) : Dword := if on bit then (t.getRun c i).v else 0
    let ext := [arg 1 24, arg 2 28, arg 3 26]
    let badCtl := ctl.v.extractLsb' 40 24 ≠ 0 ∨ (on 27 = false ∧ ctl.v.extractLsb' 34 6 ≠ 0)
      ∨ (on 26 = false ∧ ctl.v.extractLsb' 32 2 ≠ 0) ∨ (on 25 = false ∧ ctl.v.extractLsb' 29 3 ≠ 0)
      ∨ ctl.v.extractLsb' 29 3 = 6 ∨ ctl.v.extractLsb' 29 3 = 7 ∨ ctl.v.extractLsb' 32 2 = 3
      ∨ (on 24 = true ∧ (arg 1 24).extractLsb' 12 52 ≠ 0)
    ready j s →
      ((∀ L, wants L = false) → exec j s = .next (retire s (nl true)))
      ∧ ∀ L, wants L = true → (∀ K, K < L → wants K = false) → ctl.p = false → (∀ x ∈ five a L ++ five b L, x.p = false) →
        (∀ i, i < 3 → on ([24, 28, 26].getD i 0) = true →
          c.val + i + 1 < 32 ∧ (t.getRun c (i + 1)).p = false ∧ t.interlocked [rS (Fin.ofNat 32 (c.val + i + 1))] = false) →
        (badCtl → noneOlder s → exec j s = .next (takeTrap (nl false) ⟨LAYOUT_INVALID, 0, ctl.v &&& 0xFFFFF⟩ t.pc s.iw none))
        ∧ (¬ badCtl → (on 24 = true → arg 1 24 ≠ 0 ∧ ∀ k, (((s.clusterOf t.team).map fun c => c.members.length).getD 1) ≤ k →
            (arg 1 24).getLsbD k = false) → t.releasedCore = true → replayFull s t.core = false →
          let lt := ((s.gridOf t).map fun g => g.r.ltbase).getD 0
          let base := (if lt = 0 then (s.ctxOf t).ltbase else lt).toNat
          let so := (five a L).map fun x => x.v.toNat
          let dto := (five b L).map fun x => x.v.toNat
          let at_ (lo : Nat) : Nat := base + 64 * (ctl.v.extractLsb' lo 10).toNat
          heldBy (s.marksOf t.team) 0 0 (at_ 0) 64 = .free → heldBy (s.marksOf t.team) 0 0 (at_ 10) 64 = .free →
          ∀ (sv dv : Nat) (s1 s2 s3 : State) (src dst : Layout) (ms : List Nat),
            coreRead (nl false) t.core slot false (at_ 0) 64 = (.ok sv false, s1) →
            coreRead s1 t.core slot false (at_ 10) 64 = (.ok dv false, s2) →
            copyCheck s2 ctl.v ext so dto sv dv = .ok (src, dst, ms) →
            claimEngines s2 (((if src.space = 2 then [t.team] else [])
              ++ (if dst.space = 2 then ms.filterMap (memberTeam s2 t.team) else [])).filter fun x =>
                !((s2.team? x).map Team.exited).getD true) = (none, s3) →
            s1.slotOf t = slot → s3.cur = (nl false).cur → s3.now = s.now → s3.ctxs = s.ctxs → s3.gridOf t = s.gridOf t →
            s3.slotOf t = slot → (∀ m ∈ s3.teams, m.marks.length = 16) → (s3.teams.map Team.id).Nodup →
            let seq := (s.ctx slot).cpyseq.getD t.core 0
            let w := (ctl.v.extractLsb' 20 4).toNat
            let new : Copy := ⟨s3.seq, t.team, t.core, ((s.gridOf t).map Grid.id).getD 0, slot, ctl.v, ext, so, dto, src, dst, seq,
              ms.map fun m => (m, 0, false), [], [], [], Ev.none, Ev.none, 0, .landing, none, none, none, none, true, false⟩
            let bound := t.team :: (if on 24 then (ms.filterMap (memberTeam s3 t.team)).filter fun x => x != t.team else [])
            let state (x : Nat) : BitVec 3 := ((s3.marksOf x).getD w Watermark.idle).state
            ((∃ x ∈ bound, state x = 1 ∨ state x = 2) → ∃ k, exec j s = .next (block s3 (.watermark k w)))
            ∧ ((∀ x ∈ bound, state x ≠ 1 ∧ state x ≠ 2) → slotsUsed s3 t.core + slotsWanted s3 t.core < 8 → overwrites s3 new = false →
              ∃ r, exec j s = .next (retire s r) ∧ r.copies = s3.copies ++ [new] ∧ r.cur = s3.cur ∧ r.mem = s3.mem
                ∧ (r.ctx slot).cpyseq.getD t.core 0 = seq + 1
                ∧ (∀ x ∈ bound, s3.team? x ≠ none → (r.marksOf x).getD w Watermark.idle =
                  ⟨seq.truncate 32, 0, BitVec.ofNat 3 dst.tb, BitVec.ofNat 2 dst.space, 1, new.lo, new.hi, new.lo,
                    if dst.info.block then dst.info.size else 0⟩)
                ∧ (∀ x, x ∉ bound → r.team? x = s3.team? x)
                ∧ (∃ e ∈ r.agenda, e.1 ≤ s.now + 1 ∧ e.2 = .copyUnitLand s3.seq)))

/-- 12 R295, R296, R297, R300, R301, R304, R305, R307: MFMT sets the format word, and MPERT, of legal fields, the perturbation of
the next MMA, once it holds its core's engine. The formats and their accumulators make K and the cycles of R297; the rest are
MATRIX_OPERAND 1, 2 and 3, an odd accumulator under FP64 4. A fixed four-bit type is for formats of four bits alone. MMA, MMA.L
and MZERO of a group or a stream of one core, and MMA.L of any stream, which holds its core's engine or claims the free one, with
room in the queue and no watermark on its buffers, send one operation with the format word as it stands, and an MMA takes the
perturbation with it; MMA of a cluster's stream, its members' engines held by their teams, sends it to each of them. On an idle
engine the operation completes after its cycles: that a cycle of R297 counts as one tick is the model's choice (log 2). Another
holder's engine is waited for. MSYNC waits for the operations of its thread. SEQGO, with nothing to release and the sequencer
free, starts a stream at its address. -/
def Obligations.MatrixIssue : Prop :=
  ∀ (s : State) (m : Team) (d : Fin 4) (a b : Fin 8) (x y : SReg), s.team? s.cur.team = some m →
    (∀ z ∈ s.teams, z.id = m.id → z = m) → m.core = s.cur.core → s.cur.core < s.cores.length →
    let t := s.cur
    let u := t.getS x
    let v := t.getS y
    let f := t.mfw
    let e := (s.core t.core).engine
    let pick := u.v.extractLsb' 16 5
    let count := ((s.clusterOf t.team).map fun c => c.members.length).getD 1
    let kentry := match s.gridOf t with
      | some g => g.r.kentry
      | none => 0
    let format (a b acc : Nat) : Dword := BitVec.ofNat 64 (a + b * 16 + acc * 16384)
    let mine := e.holder = some t.team ∨ e.holder = none
    let alone := t.stream = false ∨ t.cluster = false
    let clear (a b : Nat) : Prop := ∀ w ∈ m.marks, w.state ≠ 0 → w.space = 2 → (w.tb.toNat = a ∨ w.tb.toNat = b) → w.hi ≤ w.mark
    let sent (j : Instr) (zero : Bool) (d a b : Nat) (cycles : Nat) : Prop :=
      ready j s → mine → e.queue.length < 8 →
        let have_ : Engine := if e.holder = none then { m.engine.getD Engine.free with holder := some t.team } else e
        let pert : Option (Nat × Dword) := match t.mpert with
          | some (sel, v) =>
            let k := (sel.extractLsb' 16 5).toNat
            if zero = false ∧ (k = 31 ∨ k = m.member) then some ((sel.extractLsb' 0 12).toNat, v) else none
          | none => none
        let op : MatOp := ⟨s.seq, t.uid, zero, f, d, a, b, pert, s.slotOf t, kentry⟩
        have_.queue.length < 8 →
        ∃ r, exec j s = .next (retire s r) ∧ r.cur = (if zero then t else { t with mpert := none })
          ∧ (r.core t.core).engine = { have_ with queue := have_.queue ++ [op] }
          ∧ (∀ k, k ≠ t.core → r.core k = s.core k) ∧ r.mem = s.mem
          ∧ r.agenda = (if have_.queue = [] then agendaAdd (s.now + cycles) (.matrixOpComplete t.core) s.agenda else s.agenda)
    let all (j : Instr) (zero : Bool) (d a b : Nat) (cycles : Nat) : Prop :=
      ∀ (k : Cluster) (at_ : Nat → Team), ready j s → t.stream = true → t.cluster = true → s.clusterOf t.team = some k →
        let all_ := k.members.map Prod.snd
        (∀ z ∈ all_, s.team? z = some (at_ z) ∧ (at_ z).exited = false ∧ (at_ z).core < s.cores.length
          ∧ (s.core (at_ z).core).engine.holder = some z ∧ (s.core (at_ z).core).engine.queue.length < 8
          ∧ (zero = false → ∀ w ∈ (at_ z).marks, w.state ≠ 0 → w.space = 2 → (w.tb.toNat = a ∨ w.tb.toNat = b) → w.hi ≤ w.mark)) →
        (all_.map fun z => (at_ z).core).Nodup →
        let op (z : Team) : MatOp := ⟨s.seq, t.uid, zero, f, d, a, b, match t.mpert with
          | some (sel, v) =>
            let n := (sel.extractLsb' 16 5).toNat
            if zero = false ∧ ((n = 31 ∧ z.core = t.core) ∨ (n ≠ 31 ∧ n = z.member)) then some ((sel.extractLsb' 0 12).toNat, v)
            else none
          | none => none, s.slotOf t, kentry⟩
        ∃ r, exec j s = .next (retire s r) ∧ r.cur = (if zero then t else { t with mpert := none }) ∧ r.mem = s.mem
          ∧ (∀ z ∈ all_, (r.core (at_ z).core).engine =
              { (s.core (at_ z).core).engine with queue := (s.core (at_ z).core).engine.queue ++ [op (at_ z)] }
            ∧ ((s.core (at_ z).core).engine.queue = [] → (s.now + cycles, .matrixOpComplete (at_ z).core) ∈ r.agenda))
          ∧ ∀ n, (∀ z ∈ all_, (at_ z).core ≠ n) → r.core n = s.core n
    let fp8 : List (Nat × Nat × Nat × Nat × Nat) :=
      ([2, 3, 8, 9] : List Nat).flatMap fun p => ([2, 3, 8, 9] : List Nat).map fun q => (p, q, 0, 256, 32)
    (ready (.mfmt x) s → u.p = false → exec (.mfmt x) s = .next (retire s { s with cur := { t with mfw := u.v } }))
    ∧ (ready (.mpert x y) s → u.p = false → v.p = false → u.v.extractLsb' 12 4 = 0 → u.v.extractLsb' 21 43 = 0 →
        (pick = 31 ∨ pick.toNat < count) →
        (e.holder = some t.team → exec (.mpert x y) s = .next (retire s { s with cur := { t with mpert := some (u.v, v.v) } }))
        ∧ (e.holder = none → ∃ r, exec (.mpert x y) s = .next (retire s r) ∧ r.cur = { t with mpert := some (u.v, v.v) }
          ∧ (r.core t.core).engine = { m.engine.getD Engine.free with holder := some t.team }
          ∧ (∀ k, k ≠ t.core → r.core k = s.core k) ∧ r.mem = s.mem ∧ r.agenda = s.agenda)
        ∧ (∀ h, e.holder = some h → h ≠ t.team → exec (.mpert x y) s = .next (block s (.engine t.core))))
    ∧ (∀ row ∈ ([(0, 0, 0, 128, 32), (1, 1, 0, 128, 32), (4, 4, 1, 256, 32), (10, 10, 0, 320, 40), (11, 11, 0, 512, 32),
        (5, 5, 0, 64, 64), (6, 6, 2, 32, 256)] : List (Nat × Nat × Nat × Nat × Nat)) ++ fp8,
        let (p, q, acc, k, cycles) := row
        (∀ four, four < 64 → (p = 11 ∨ four = 0) →
          mmaShape (format p q acc + BitVec.ofNat 64 (256 * four)) = .ok (k, cycles)
          ∧ (f = format p q acc + BitVec.ofNat 64 (256 * four) → (acc = 2 → d.val % 2 = 0) →
            (clear a.val b.val → (alone → sent (.mma d a b) false d.val a.val b.val cycles)
              ∧ sent (.mmaL d a b) false d.val a.val b.val cycles)
            ∧ all (.mma d a b) false d.val a.val b.val cycles))
        ∧ (∀ four, 0 < four → four < 64 → p ≠ 11 → mmaShape (format p q acc + BitVec.ofNat 64 (256 * four)) = .error 2)
        ∧ (∀ other, other ≠ acc → other < 3 → mmaShape (format p q other) = .error 3)
        ∧ mmaShape (format p q 3) = .error 1 ∧ mmaShape (format p 7 acc) = .error 1 ∧ mmaShape (format 12 q acc) = .error 1
        ∧ (p ≠ 5 → mmaShape (format p 5 acc) = .error 2))
    ∧ (∀ j ∈ ([.mma d a b, .mmaL d a b] : List Instr), ready j s → noneOlder s →
        (∀ n, mmaShape f = .error n → exec j s = .next (takeTrap s ⟨MATRIX_OPERAND, n, f⟩ t.pc s.iw none))
        ∧ (f = format 6 6 2 → d.val % 2 = 1 → exec j s = .next (takeTrap s ⟨MATRIX_OPERAND, 4, f⟩ t.pc s.iw none)))
    ∧ (alone → sent (.mzero d) true d.val 0 0 16)
    ∧ all (.mzero d) true d.val 0 0 16
    ∧ (∀ h, e.holder = some h → h ≠ t.team → alone → ready (.mzero d) s →
        exec (.mzero d) s = .next (block s (.engine t.core)))
    ∧ (ready .msync s → (∀ k ∈ s.cores, ∀ o ∈ k.engine.queue, o.uid ≠ t.uid) → exec .msync s = .next (retire s s))
    ∧ (ready .msync s → (∃ k ∈ s.cores, ∃ o ∈ k.engine.queue, o.uid = t.uid) → exec .msync s = .next (hold s))
    ∧ (ready (.seqgo x) s → u.p = false → u.v.extractLsb' 57 7 = 0 → u.v.extractLsb' 0 2 = 0 → streamOn s t.core = none →
        (s.core t.core).seqwait = [] → release .pkg s = (true, s) → ∃ w : Thread,
          exec (.seqgo x) s = .next (retire s { s with threads := s.threads ++ [w], seq := s.seq + 1 })
          ∧ w.uid = s.seq ∧ w.stream = true ∧ w.cluster = (m.member == 0) ∧ w.team = t.team ∧ w.core = t.core ∧ w.pc = u.v
          ∧ w.mode = .seq ∧ w.sig = 0xFFFFFFFF ∧ w.log = [] ∧ w.wait = .none ∧ ∀ r ∈ w.sregs, r = ⟨0, false⟩)

/-- 12 R302, R303: ACRD, ACWR, TBW and TBR of a group that holds its core's engine, with no operation in its queue and no
watermark on tile buffers. ACRD and ACWR move, for each active lane L, element B + L × STRIDE of the accumulator, with .W of the
odd one after it too, whose bit of P counts for both words of a lane; TBW and TBR move word L of a row for L of 0 to 67, and TBR
gives zero in the lanes above. Every bit of P moves with its word, and nothing else of the engine changes. An index of 4096 or
more, or a row that is none, is MATRIX_OPERAND 5, and .W of an odd accumulator 4. -/
def Obligations.MatrixRows : Prop :=
  ∀ (s : State) (m : Team) (v : VReg) (n : Fin 4) (tb : Fin 8) (b : SReg) (wide : Bool), s.team? s.cur.team = some m →
    m.core = s.cur.core → s.cur.core < s.cores.length → s.cur.shaped → s.cur.stream = false →
    let t := s.cur
    let e := (s.core t.core).engine
    let base := t.getS b
    let stride := t.getRun b 1
    let index (L : Nat) : Nat := base.v.toNat + L * stride.v.toNat
    let lanes := lanesOf t.mask
    let reg := t.wbase + v.val
    let regs := if wide then 2 else 1
    let row := base.v.toNat
    let place (L : Nat) : Nat := tb.val * 0x4400 + if L < 64 then row * 256 + 4 * L else 0x4000 + row * 16 + 4 * (L - 64)
    let at_ (e : Engine) (L : Nat) : Lane := ⟨BitVec.ofNat 32 (Mem.load e.tiles (place L) 4), e.tileP.getLsbD (place L / 4)⟩
    e.holder = some t.team → e.queue = [] → Mem.wf e.acc = true → Mem.wf e.tiles = true → (∀ w ∈ m.marks, w.space ≠ 2 ∨ w.state = 0) →
    (base.p = false → stride.p = false → (∀ L ∈ lanes, index L < 4096) → (wide = true → n.val % 2 = 0) → reg + regs ≤ t.allot →
      (ready (.acrd v n wide b) s → ∃ u : Thread, exec (.acrd v n wide b) s = .next (retire s { s with cur := u })
        ∧ { u with vregs := t.vregs } = t
        ∧ ∀ r L, L < 96 → u.lane r L = if t.activeLane L = true ∧ reg ≤ r ∧ r < reg + regs
          then ⟨BitVec.ofNat 32 (e.accGet (n.val + (r - reg)) (index L)).1,
            (e.accGet n.val (index L)).2 || (wide && (e.accGet (n.val + 1) (index L)).2)⟩ else t.lane r L)
      ∧ (ready (.acwr v n wide b) s → stride.v ≠ 0 → ∃ e' : Engine,
        exec (.acwr v n wide b) s = .next (retire s (s.modCore t.core fun k => { k with engine := e' }))
        ∧ { e' with acc := e.acc, accP := e.accP } = e
        ∧ (∀ L ∈ lanes, ∀ k, k < regs → e'.accGet (n.val + k) (index L) = ((t.lane (reg + k) L).v.toNat,
            (t.lane reg L).p || (wide && (t.lane (reg + 1) L).p)))
        ∧ ∀ d i, i < 4096 → (∀ L ∈ lanes, ∀ k, k < regs → ¬ (d = n.val + k ∧ i = index L)) → e'.accGet d i = e.accGet d i))
    ∧ (base.p = false → row < 64 →
      (ready (.tbr v tb b) s → reg < t.allot → ∃ u : Thread, exec (.tbr v tb b) s = .next (retire s { s with cur := u })
        ∧ { u with vregs := t.vregs } = t
        ∧ ∀ r L, L < 96 → u.lane r L = if t.activeLane L = true ∧ r = reg
          then (if L ≤ 67 then at_ e L else ⟨0, false⟩) else t.lane r L)
      ∧ (ready (.tbw v tb b) s → ∃ e' : Engine,
        exec (.tbw v tb b) s = .next (retire s (s.modCore t.core fun k => { k with engine := e' }))
        ∧ { e' with tiles := e.tiles, tileP := e.tileP } = e
        ∧ (∀ L ∈ lanes, L ≤ 67 → at_ e' L = t.lane reg L)
        ∧ ∀ o, (∀ L ∈ lanes, L ≤ 67 → ¬ (place L ≤ o ∧ o < place L + 4)) → Mem.get e'.tiles o = Mem.get e.tiles o
          ∧ e'.tileP.getLsbD (o / 4) = e.tileP.getLsbD (o / 4)))
    ∧ (noneOlder s → (∀ j ∈ ([.acrd v n wide b, .acwr v n wide b] : List Instr), ready j s → base.p = false → stride.p = false →
          ((∃ L ∈ lanes, 4096 ≤ index L) → exec j s = .next (takeTrap s ⟨MATRIX_OPERAND, 5, t.mfw⟩ t.pc s.iw none))
          ∧ ((∀ L ∈ lanes, index L < 4096) → wide = true → n.val % 2 = 1 →
            exec j s = .next (takeTrap s ⟨MATRIX_OPERAND, 4, t.mfw⟩ t.pc s.iw none)))
        ∧ (∀ j ∈ ([.tbw v tb b, .tbr v tb b] : List Instr), ready j s → base.p = false → 64 ≤ row →
          exec j s = .next (takeTrap s ⟨MATRIX_OPERAND, 5, t.mfw⟩ t.pc s.iw none)))

/-- 13 R312 to R314, R319 to R322, 08 R207: UIPOLL reads UIPEND; UIACK gives CNT and DATA of a vector and clears them and its
pending bit; UIRET, of the handler group in its handler, ends it: the mask is UISAVM, the PC UIPC, and elsewhere it is
ILLEGAL_INSN 8. UISEND and UISENDW to the own context, with the release complete and no earlier arrival waiting there, present the
vector to the toll table: when it admits the kernel and the vector's rule takes it, it is recorded, DATA combined by the rule, CNT
one more to at most 65535; else DROPS counts, and UISEND sets DEN, where UISENDW is UINT_DENIED. To a context at another package
they send one message by a path whose links are up, UISENDW waiting for its answer. -/
def Obligations.UserInterrupts : Prop :=
  ∀ (s : State) (d a b : SReg), s.slotOf s.cur < s.ctxs.length →
    let t := s.cur
    let slot := s.slotOf t
    let c := s.ctx slot
    let u := c.ui
    let x := t.getS a
    let y := t.getS b
    let n := (y.v.extractLsb' 0 6).toNat
    let vec := (x.v.extractLsb' 0 6).toNat
    let data : Word := y.v.extractLsb' 0 32
    let withUi (s : State) (f : UiRegs → UiRegs) : State := s.modCtx slot fun c => { c with ui := f c.ui }
    let masked := maskOf u.savm &&& t.live
    let grid := ((s.gridOf t).map Grid.id).getD 0
    let ident := ((s.grid? grid).map fun g => (g.r.kentry.extractLsb' 2 55).toNat).getD 0
    u.cnt.length = 64 → u.data.length = 64 →
    (ready (.uipoll d) s → exec (.uipoll d) s = .next (retire s { s with cur := writeS t d ⟨u.pend, false⟩ }))
    ∧ (ready (.uiack d b) s → y.p = false → exec (.uiack d b) s = .next (retire s { withUi s fun u => { u with
            pend := u.pend &&& ~~~((1 : Dword) <<< n), wide := u.wide &&& ~~~((1 : Dword) <<< n)
            cnt := u.cnt.set n 0, data := u.data.set n 0 } with
          cur := writeS t d ⟨((u.cnt.getD n 0).zeroExtend 32 : BitVec 32) ++ u.data.getD n 0, false⟩ }))
    ∧ (ready .uiret s → u.hg = some t.uid → u.inh = true → t.sregs.length = 32 → ∃ r : Thread,
        exec .uiret s = .next (retire s { withUi s fun u => { u with inh := false } with cur := r }
          |> fun z => { z with cur := { z.cur with pc := u.pc, fetched := none } })
        ∧ r.mask = masked ∧ r.cc = { t.cc with mz := masked == 0, mf := masked == t.live }
        ∧ (∀ k, k < 29 → r.sregs[k]? = t.sregs[k]?) ∧ { r with sregs := t.sregs, cc := t.cc } = t)
    ∧ (ready .uiret s → (u.hg ≠ some t.uid ∨ u.inh = false) → noneOlder s →
        exec .uiret s = .next (takeTrap s ⟨ILLEGAL_INSN, 8, t.pc⟩ t.pc s.iw none))
    ∧ (x.p = false → y.p = false → x.v.extractLsb' 6 58 = 0 → release .pkg s = (true, s) → c.status = .loaded →
      ctxBusy s slot = false → c.arrivals = [] →
      ∀ row ∈ ([(.uisend a b, s.modCtx slot fun c => { c with
            arrivals := [⟨3, ident, vec, data, false, .send t.uid grid slot none⟩] }), (.uisendw a b, s)] : List (Instr × State)),
      let (j, s1) := row
      (∀ r, (tollVector s1 slot 3 ident vec).2 = r → r.cur = t ∧ r.saved = []
        ∧ r.ctx slot = { s1.ctx slot with toll := (r.ctx slot).toll } ∧ r.ctxs.length = s.ctxs.length ∧ s.slotOf t = r.slotOf t) →
      let table := tollVector s1 slot 3 ident vec
      let judged (r : State) : State := if j = .uisend a b then r.modCtx slot fun c => { c with arrivals := [] } else r
      let takes := table.1 = some true ∧ (u.rule.getD vec 0).getLsbD 7 = true
      let old := u.data.getD vec 0
      let new := match ((u.rule.getD vec 0).extractLsb' 0 2).toNat with
        | 0 => if u.cnt.getD vec 0 = 0 then data else old
        | 1 => data
        | 2 => old ||| data
        | _ => old + data
      let drop (u : UiRegs) : UiRegs := { u with drops := if u.drops = 0xFFFF then 0xFFFF else u.drops + 1 }
      ready j s → (takes → exec j s = .next (retire s (judged (State.wake (withUi table.2
          fun u => { u with pend := u.pend ||| (1 : Dword) <<< vec, data := u.data.set vec new
                            cnt := u.cnt.set vec (if u.cnt.getD vec 0 = 0xFFFF then 0xFFFF else u.cnt.getD vec 0 + 1) })))))
      ∧ (¬ takes → table.1 ≠ none →
        (j = .uisend a b → exec j s = .next (retire s (judged (withUi table.2 fun u => { drop u with den := true }))))
        ∧ (j = .uisendw a b → noneOlder s → exec j s =
          .next (takeTrap (withUi table.2 drop) ⟨UINT_DENIED, 0, x.v⟩ t.pc s.iw none))))
    ∧ (x.p = false → y.p = false → x.v.extractLsb' 40 24 = 0 → x.v.extractLsb' 6 8 = 1 →
      let ep := (x.v.extractLsb' 14 10).toNat
      present s ep = true → isHost s ep = false → deadCell s (cellOf s ep) = false → s.isolated = false → ep ≠ s.self →
      release .span s = (true, s) → c.pdeny = none → pathsTo s (spanId s) ep ≠ [] →
      let msg (posted : Bool) : Arrival :=
        ⟨s.seq, 1, s.self, streamId s slot, s.self, (x.v.extractLsb' 24 16).toNat, vec, data, none, posted⟩
      (ready (.uisend a b) s → ∃ r, exec (.uisend a b) s = .next (retire s r) ∧ r.cur = t ∧ r.mem = s.mem
        ∧ r.outbox = .arrival (spanId s) ep (msg true) :: s.outbox)
      ∧ (ready (.uisendw a b) s → ∃ r, exec (.uisendw a b) s = .next (block r (.sendw s.seq)) ∧ r.cur = t ∧ r.mem = s.mem
        ∧ r.outbox = .arrival (spanId s) ep (msg false) :: s.outbox))

/-! ### Events (05, 13, 14, 15, 16, 17) -/

/-- 17 R370: in a package that has booted and is not in recovery every event and every message has its effect, which the
operation of its rule gives; the command registers of 17 R365 also have it in recovery, and a read of a register is answered
there, while stores to the launch and interrupt ports do nothing; before the boot no message and no event changes anything. In
recovery a request of a host's endpoint to a package register counts as a PCIe access: the model's choice (log 93).
14 R323 to R325, 06 R151 to R158, R168: a cluster at the head of the queue that no place admits waits; else it starts in the first
place, a team on each of its cores, each with its groups at KENTRY, registers zero, and a stream at SENTRY on the anchor if there is
one, and its grid's next cluster enters the queue. 14 R331, 15 R355: a cluster whose groups all wait at YIELD, with no copy and no
pin, is saved, to a slot that is free then; without one it stays, and is tried again. 14 R333: a saved cluster with a group at YIELD
asks for its restore; one whose group waits for a landing watermark is looked at again after 10,000 ticks; one whose context is not
loaded is not looked at. 14 R334: a restored cluster has its teams on the cores of its place, its groups as their areas give
them, and its slots are free. 15 R352 to R354: the end of a LOAD refuses an invalid block with ERR 1, another entry's number with
ERR 2, and else the context is loaded as its block says. 17 R372: a report is of the measurements, the nonce, the
endpoint, its cell and span, and a signature; it is written word by word, and BUSY ends with the last. The effects of the
registers, of the cells, of the directory and of a core's events are statements of their own. -/
def Obligations.EventsRun : Prop :=
  ∀ (s : State) (w : Dword) (n k : Nat) (b : Bool) (req : HomeReq) (rec : Recall) (ra : RecallAns) (ha : HomeAns) (pm : PutMsg)
    (fm : FlagMsg) (gm : GetMsg) (am : RAtomMsg) (id : StreamId) (e8 : BitVec 8) (ans : RemoteAns) (arr : Arrival) (inv : InvMsg) (who : Canceller) (ep : Nat)
    (lines : List (LineData × Bool)) (size : Nat) (inc : BitVec 16),
    let waiting (uid : Nat) (f : Wait → Prop) (t : State) : Prop := match s.thread? uid with
      | some u => (f u.wait → t = s.asThread uid resume) ∧ (¬ f u.wait → t = s)
      | none => t = s
    (∀ row ∈ ([(.lportLaunch n k w, portStore s n k w), (.lportGraph n k w, portStore s n k w),
        (.uiportStore n k size w, uiportStore s n k size w), (.attestationReportDone, attDone s),
        (.wbk req, if ownReg s req.line then requestArrive s .wbk req else homeWbk s req),
        (.cancel who k, cancelDeliver s who k), (.recallInv rec, recallArrive s 0 rec), (.recallDown rec, recallArrive s 1 rec),
        (.recallCopy rec, recallArrive s 2 rec), (.recallDwb rec, recallArrive s 3 rec), (.recallAnswer ra, homeRecallAnswer s ra),
        (.homeAnswer ha, homeAnswerAll s ha), (.retry n, s.post (s.now + 100) (.retryResend n)), (.retryResend n, retryResend s n),
        (.retryMigrating n, retryMigrating s n), (.migrationDone n, migrationDone s n), (.rputDelivery pm, putDeliver s pm),
        (.rputfDelivery fm, flagDeliver s fm), (.rgetDelivery gm, getDeliver s gm), (.ratomDelivery am, atomDeliver s am),
        (.epochClose id n e8 k, if shunnedSrc s id then s else (epochDrop s id n e8).say (.closeAck id k)), (.epochCloseAck n, closeAck s n),
        (.remoteAck n b, remoteAck s n b), (.remoteAnswer ans, remoteAnswer s ans), (.uiArrival arr, arrivalDeliver s arr),
        (.uiSendAnswer n b, sendAnswer s n b), (.monitorDeclare n, monitorDeclare s n), (.deathDeclaration n inc, deathDeclaration s n inc),
        (.recoveryRegionScan n, recoveryScan s n), (.linkDown n, linkDown s n), (.invalidation inv, invalArrive s inv),
        (.invalidationAck n, invalAck s n), (.pageWalkComplete n, walkDone s n), (.requestTimeout n, requestTimeout s n),
        (.storeBufferTimeout n k, sbTimeout s n k), (.storeBufferAnswer n k size, sbAnswer s n k size),
        (.l2WritePerform n, l2WritePerform s n), (.launchAccept n, portAccept s n), (.afterConditionRead n, afterRead s n),
        (.dispatchPlace, dispatchRetry s), (.dispatchRetry, dispatchRetry s), (.activeSetSwap n, activeSwap s n),
        (.clusterEvict n, clusterEvict s n), (.evictRetry n, clusterEvict s n), (.wakeEvaluate n, wakeEvaluate s n),
        (.gridComplete n, gridComplete s n), (.gridCompletionActions n, completionActions s n), (.trapEntry n, s.asThread n trapOldest),
        (.uiHandlerEntry n, s.asThread n fun s => if handlerDue s s.cur then enterHandler s else s),
        (.fqRetry n, fqAppend s n), (.copyUnitLand n, copyUnitLand s n), (.copyLineWritePerformed n k, copyLineWritten s n k),
        (.copyLandingsComplete n, copyLandingsDone s n), (.copyStampPerformed n, copyStamped s n),
        (.matrixOpComplete n, matrixComplete s n), (.migrationStart (.own n), moveStart s n),
        (.migrationStart (.give n), moveGive s n), (.migrationCopyPage (.own n), moveCopy s n),
        (.migrationCopyPage (.write ep n lines k), moveTaken s ep n lines k), (.migrationFinish (.own n), moveFinish s n),
        (.migrationFinish (.back ep n), moveBack s ep n), (.migWindowBoundary, windowHalve s), (.eccRetry n, eccVerdict s n),
        (.scrubPass n, scrubPass s n), (.l2LoadAnswer n k, loadAnswer s n k), (.memberScratchpadAccess n, memberAccess s n),
        (.ctxcmdComplete, ctxcmdComplete s), (.leaseExpiry n, jobsGoOn (leaseExpiry s n))] : List (Instr × State)),
      (s.up → exec row.1 s = .next row.2) ∧ (s.booted = false → exec row.1 s = .next s) ∧ (s.recovery = true → exec row.1 s = .next s))
    ∧ (∀ row ∈ ([(.rds req, .rds), (.rdx req, .rdx), (.upg req, .upg), (.wrf req, .wrf), (.atf req, .atf), (.ntr req, .ntr),
        (.prf req, .prf)] : List (Instr × HomeKind)), (s.up → exec row.1 s = .next (requestArrive s row.2 req))
      ∧ (s.recovery = true → exec row.1 s =
        .next (if ownReg s req.line = true ∧ isHost s req.ep = true then requestArrive s row.2 req else s))
      ∧ (s.booted = false → s.recovery = false → exec row.1 s = .next s))
    ∧ (∀ row ∈ ([(.ctxcmdLoad w, loadBegin s w), (.ctxcmdPark w, parkBegin s w), (.ctxcmdForget w, forget s w),
        (.evcmdEvict w, evictContext s w), (.evcmdEnd w, endContext s w), (.fqcmdReplay w, fqDispose s w), (.fqcmdDrop w, fqDispose s w),
        (.pgcmdGo w, pageCommand s w false), (.pgcmdSweep w, pageCommand s w true)] : List (Instr × State)),
      (s.booted = true ∨ s.recovery = true → exec row.1 s = .next row.2)
      ∧ (s.booted = false → s.recovery = false → exec row.1 s = .next s))
    ∧ (∀ row ∈ ([(.waitEvaluate n, fun w => ∃ a b c d, w = .wait a b c d), (.waitTimeout n, fun w => ∃ a b c d, w = .wait a b c d),
        (.baraWaitEnd n, fun w => ∃ a b c, w = .bara a b c), (.fenceComplete n, fun w => ∃ a, w = .fence a)] : List (Instr × (Wait → Prop))),
      s.up → ∃ t, exec row.1 s = .next t ∧ waiting n row.2 t)
    ∧ (s.up → ∃ t, exec (.sequencerGrant n) s = .next t ∧ match (s.core n).seqwait with
      | uid :: _ => if (streamOn s n).isSome then t = s else waiting uid (fun w => ∃ a, w = .seqgo a) t
      | [] => t = s)
    ∧ (∀ (q : PlaceReq) (g : Grid), s.up → s.queue = [q] → s.placeFrom ≤ s.now → g ∈ s.grids →
      (∀ x ∈ s.grids, x.id = g.id → x = g) → g.err = false → (s.ctx g.slot).status = .loaded → s.evcmd.getLsbD 62 = false →
      let place := findPlace s g.die g.r.cw g.r.ch
      let need (i : Nat) : Need := needOf g (i == 0)
      (q.restore = false → g.id = q.target →
        (place ((List.range (g.r.cw * g.r.ch)).map need) = none →
          ∃ t, exec .dispatchPlace s = .next t ∧ { t with agenda := s.agenda } = s)
        ∧ ∀ cores, place ((List.range (g.r.cw * g.r.ch)).map need) = some cores → cores ≠ [] → ∃ t c ms xs, exec .dispatchPlace s = .next t
          ∧ t.placeFrom = s.now + 1 ∧ t.mem = s.mem ∧ t.l2 = s.l2 ∧ t.saved = s.saved
          ∧ t.queue = (if q.index + 1 < g.clusters then [⟨t.seq - 1, false, g.id, q.index + 1, g.r.prio, s.now⟩] else [])
          ∧ t.clusters = s.clusters ++ [c] ∧ t.teams = s.teams ++ ms
          ∧ t.threads.map (fun x => { x with stall := false }) = (s.threads ++ xs).map (fun x => { x with stall := false })
          ∧ c.index = q.index ∧ c.grid = g.id ∧ c.members = ms.map (fun m => (m.core, m.id)) ∧ ms.map Team.core = cores
          ∧ ms.map Team.member = List.range cores.length
          ∧ (∀ m ∈ ms, m.cluster = c.id ∧ m.grid = g.id ∧ m.scratch = [] ∧ m.marks = List.replicate 16 Watermark.idle ∧ m.exited = false)
          ∧ xs.map (fun x => (x.team, x.core, x.gid, x.stream)) = (
            (ms.flatMap fun m => (List.range (g.r.gpt + 1)).map fun i => (m.id, m.core, i, false))
              ++ (if g.r.sentry = 0 then [] else (ms.take 1).map fun m => (m.id, m.core, 0, true)))
          ∧ ∀ x ∈ xs, x.acq = some true ∧ x.sregs.take 29 = List.replicate 29 ⟨0, false⟩ ∧ x.preds = List.replicate 32 ⟨0, 0⟩
            ∧ if x.stream = true then x.mode = .seq ∧ x.pc = g.r.sentry else
              x.mode = .user ∧ x.pc = g.r.kentry ∧ x.mask = x.live ∧ x.vregs = List.replicate g.r.allot (List.replicate 96 ⟨0, false⟩)
              ∧ ∀ L, L < 96 → (x.live.getLsbD L = true ↔ x.gid ≠ g.r.gpt ∨ L < g.r.lastl))
      ∧ (∀ c : SavedCluster, q.restore = true → c ∈ s.saved → (∀ x ∈ s.saved, x.id = c.id → x = c) → c.id = q.target →
        c.cluster.grid = g.id → c.copies = [] → (∀ m ∈ c.teams, m.exited = false) →
        (place (c.cluster.members.map (restoreNeed g c)) = none → ∃ t, exec .dispatchPlace s = .next t ∧ { t with agenda := s.agenda } = s)
        ∧ ∀ (cores : List Nat) (ms : List (Team × List Thread)) (u : State), place (c.cluster.members.map (restoreNeed g c)) = some cores →
          loadTeams g.slot g c c.teams s = (.ok (ms.map fun x => (x.1, x.2, [])), u) → u.queue = s.queue → ∃ t, exec .dispatchPlace s = .next t
          ∧ t.mem = u.mem ∧ t.queue = [] ∧ t.saved = u.saved.filter (fun x => x.id != c.id) ∧ t.clusters.length = u.clusters.length + 1
          ∧ t.teams.map (fun m => (m.id, m.core)) = u.teams.map (fun m => (m.id, m.core)) ++ ms.map (fun x => (x.1.id, cores.getD x.1.member 0))
          ∧ t.threads.map (fun x => (x.uid, x.core, x.pc, x.sregs, x.vregs)) = u.threads.map (fun x => (x.uid, x.core, x.pc, x.sregs, x.vregs))
            ++ ms.flatMap fun m => m.2.map fun x => (x.uid, cores.getD m.1.member 0, x.pc, x.sregs, x.vregs)))
    ∧ (∀ (c : Cluster) (g : Grid) (m : Team), s.up → s.out = false → c ∈ s.clusters → (∀ x ∈ s.clusters, x.id = c.id → x = c) →
      g ∈ s.grids → (∀ x ∈ s.grids, x.id = g.id → x = g) → c.grid = g.id → c.evicting = true → s.copies = [] →
      s.teams.filter (fun x => x.cluster == c.id) = [m] → (∀ x ∈ s.saved, x.id ≠ c.id) → m.exited = false → m.pinEnd = none →
      (∀ x ∈ s.threads, x.team = m.id → x.ending = false ∧ x.mode = .user ∧ x.wait = .yield) →
      ((s.ctx g.slot).poolcnt = 0 → exec (.clusterEvict c.id) s = .next (s.post (s.now + 10000) (.evictRetry c.id)))
      ∧ ∀ p ps, freeSlots (s.ctx g.slot) 1 = [p] → slotPages s g.slot (slotBase (s.ctx g.slot) p) 64 s = (some (some ps), s) →
        ∃ t x, exec (.clusterEvict c.id) s = .next t ∧ t.mem = s.mem ∧ t.teams = s.teams.filter (fun y => y.cluster != c.id)
          ∧ t.clusters = s.clusters.filter (fun y => y.id != c.id)
          ∧ t.threads.map Thread.uid = (s.threads.filter fun y => y.team != m.id).map Thread.uid
          ∧ t.saved = s.saved ++ [x] ∧ x.id = c.id ∧ x.slots = [(m.id, p)] ∧ x.teams.map (fun y => (y.id, y.scratch, y.marks)) = [(m.id, m.scratch, m.marks)]
          ∧ x.threads.map (fun y => (y.uid, y.pc, y.sregs, y.vregs, y.wait))
            = (s.threads.filter fun y => y.team == m.id).map fun y => (y.uid, y.pc, y.sregs, y.vregs, y.wait))
    ∧ (∀ (c : SavedCluster) (g : Grid) (x : Thread), s.up → c ∈ s.saved → (∀ y ∈ s.saved, y.id = c.id → y = c) → g ∈ s.grids →
      (∀ y ∈ s.grids, y.id = g.id → y = g) → c.cluster.grid = g.id →
      ((s.ctx g.slot).status ≠ .loaded ∨ c.queued = true → exec (.wakeEvaluate c.id) s = .next s)
      ∧ ((s.ctx g.slot).status = .loaded → c.queued = false → c.off = true → c.copies = [] → c.threads = [x] → x.stream = false →
        (x.wait = .yield → ∃ t, exec (.wakeEvaluate c.id) s = .next t ∧ t.mem = s.mem ∧ t.threads = s.threads
          ∧ t.queue = s.queue ++ [⟨s.seq, true, c.id, c.cluster.index, g.r.prio, s.now⟩]
          ∧ t.saved = s.saved.map (fun y => if y.id = c.id then { y with queued := true } else y)
          ∧ (s.now, .dispatchPlace) ∈ t.agenda)
        ∧ ∀ k j m, x.wait = .watermark k j → c.teams.find? (fun y => y.member == k) = some m → (m.marks.getD j Watermark.idle).state = 1 →
          (s.ctx g.slot).wake = false → (s.ctx g.slot).ui.hg ≠ some x.uid →
          exec (.wakeEvaluate c.id) s = .next (s.post (s.now + 10000) (.wakeEvaluate c.id))))
    ∧ (let slot := (s.ctxcmd.extractLsb' 0 8).toNat
      let block := (s.ctxcmd.extractLsb' 12 40).toNat * 4096
      let ended (u : State) (e : Nat) : State := { u with ctxcmd := putBits (putBit u.ctxcmd 62 false) 8 2 e }
      s.up → slot < s.ctxs.length → s.ctxcmd.getLsbD 62 = true → s.ctxcmd.extractLsb' 60 2 = 1 →
      (∀ u, readCtxBlock slot block 32 s = (some none, u) → exec .ctxcmdComplete s = .next (ended u 1))
      ∧ ∀ v u, readCtxBlock slot block 32 s = (some (some v), u) → u.ctxs.length = s.ctxs.length →
        let d (o : Nat) : Dword := BitVec.ofNat 64 (v / 256 ^ o)
        let num := ((d 0).extractLsb' 0 16).toNat
        let other := ∃ i, i < 64 ∧ i ≠ slot ∧ (u.ctx i).status ≠ .unknown ∧ (u.ctx i).num = num
        (blockInvalid v = true → exec .ctxcmdComplete s = .next (ended u 1))
        ∧ (blockInvalid v = false → other → exec .ctxcmdComplete s = .next (ended u 2))
        ∧ (blockInvalid v = false → ¬ other → ∃ t, exec .ctxcmdComplete s = .next t ∧ t.ctxcmd = putBit u.ctxcmd 62 false
          ∧ t.mem = u.mem ∧ t.l2 = u.l2 ∧ (∀ i, i ≠ slot → t.ctx i = u.ctx i) ∧ (u.now, .launchAccept slot) ∈ t.agenda
          ∧ let c := t.ctx slot
            c.status = .loaded ∧ c.block = block ∧ c.num = num ∧ c.lease = 4 * 2 ^ ((d 0).extractLsb' 16 3).toNat
            ∧ c.timeout = ((d 8).extractLsb' 0 32).toNat ∧ c.key = (d 8).extractLsb' 32 32 ∧ c.l3 = [d 0x10, d 0x18, d 0x20, d 0x28]
            ∧ c.ltbase = d 0x30 ∧ c.rwtbase = d 0x38 ∧ c.tollbase = d 0x40 ∧ c.trapvec = d 0x48 ∧ c.extmask = (d 0x50).extractLsb' 0 32
            ∧ c.fqhead = (d 0x60).toNat ∧ c.poolbase = d 0x70 ∧ c.poolcnt = ((d 0x78).extractLsb' 0 11).toNat
            ∧ (∀ i, i < 320 → c.cpyseq.getD i 0 = d (0x400 + 8 * i)) ∧ c.pool = BitVec.ofNat 1024 (v / 256 ^ 0xE00)
            ∧ c.ui.pend = d 0x100 ∧ c.ui.mask = d 0x108 ∧ (∀ i, i < 24 → c.fx.cnt.getD i 0 = (d (0x340 + 4 * i)).extractLsb' 0 32)))
    ∧ (s.up → (s.attcmd.getLsbD 62 = false → exec .attestationReportDone s = .next s)
      ∧ (s.attcmd.getLsbD 62 = true → s.meas.length = 8 → s.celltab.length = 1024 → ∃ rep : Nat × Nat,
        let i := (s.attcmd.extractLsb' 32 6).toNat
        let word (k : Nat) : Dword := BitVec.ofNat 64 (rep.1 / 2 ^ (64 * k))
        let begun : State := { s with attrep := some rep }
        let write := physWrite begun 0 (rep.2 + 8 * i) 8 (word i).toNat false false none
        (∀ r, s.attrep = some r → rep = r)
        ∧ (s.attrep = none → rep.2 = (s.attbuf.extractLsb' 6 46).toNat * 64
          ∧ (∀ k, k < 32 → word k = (s.meas.getD (k / 4) 0).extractLsb' (64 * (k % 4)) 64)
          ∧ word 32 = BitVec.ofNat 64 ((s.attcmd.extractLsb' 0 32).toNat + s.self * 2 ^ 32 + cellOf s s.self * 2 ^ 42 + spanId s * 2 ^ 50)
          ∧ ∀ k, k < 64 → BitVec.ofNat 8 (rep.1 / 256 ^ (264 + k)) = (Config.attSign (sha256 ((List.range 264).map fun j =>
            (BitVec.ofNat 8 (rep.1 / 256 ^ j) : Byte)))).extractLsb' (504 - 8 * k) 8)
        ∧ (i < 41 → ∀ r, write = (.pending, r) → exec .attestationReportDone s = .next (r.post (r.now + Config.pollTicks) .attestationReportDone))
        ∧ (i = 40 → ∀ x r, write = (.done x, r) → exec .attestationReportDone s = .next { r with
            attcmd := putBits r.attcmd 32 6 41 &&& 0xFFFFFFFF, attrep := none })
        ∧ (i = 41 → exec .attestationReportDone s = .next { s with attcmd := s.attcmd &&& 0xFFFFFFFF, attrep := none })))

/-- 16 R357, R358, R361, 02 R65, 17 R365 to R368, R371, R372, 14 R330, R335, 15 R352, 05 R133, 08 R210, 01 R38: stores to package
registers keep their writable bits, and another size or an unaligned place is discarded; what is read then is what they hold. A
one in the lowest bit of a RASCNT field clears it. COUNT, FXCTL and FXSTAT of a loaded context are written and read in its page.
The verdict on a line that was retried is logged: transient, data lost or directory lost. A scrub takes a cell that owns no line
of a region out of its map once none of its lines awaits a verdict. RASPOP drops the oldest entry. The hot limit sets HOT and a
budget of 16; its end clears HOT; POWER ADJUST moves the budget by 8 between 16 and 192, down when the
power (a free value) is over the cap, up when under nine tenths of it; that CAP reads back as written and is clamped where it acts
is the model's choice (log 39). A die's ageing register takes the monitors' figures, and WARN, which stays, below 8760 hours.
ATTCMD.GO sets BUSY, and while BUSY does nothing. A measurement is extended by SHA-256 of the old value and the new. TLBICMD
invalidates here a page, a context or all, and a load of it is answered when nothing is open. CTXCMD, EVCMD and PGCMD do nothing
while BUSY; CTXCMD refuses an entry above 63, a LOAD where another block is, a PARK of what is not loaded and a FORGET of what is
not parked; EVCMD refuses a context that is not loaded, PGCMD a page not homed here, else GO sets its class. The in-field test
drains one core at a time, while no core is drained or tested, and takes one that is free; requests for a place are tried again
then and at the hot limit. The power is a free value (log 3), SHA-256 the standard's (log 37), and the ticks at which the model looks again are
its own (log 2); that a store of COUNT sets no CROSS bit is its choice (log 87), and that the registers of a context that is not
loaded ignore stores is its reading (log 27). -/
def Obligations.ManagementEvents : Prop :=
  ∀ (s : State) (w : Dword) (off size die n : Nat) (slack : BitVec 8) (eolh : Word) (d : BitVec 256) (k : Fin 8), s.up →
    s.ages.length = 6 → s.meas.length = 8 → s.ppmask.length = 60 → s.celltab.length = 1024 →
    (∀ row ∈ ([(0x100000, { s with spancfg := w &&& 0xFFFFFFFFFFE003FF }, w &&& 0xFFFFFFFFFFE003FF),
        (0x100028, { s with migctl := w &&& 0x000000FF0FFF0001 }, w &&& 0x000000FF0FFF0001),
        (0x100038, { s with tlbiva := w }, w),
        (0x100090, { s with pwrctl := (s.pwrctl &&& 0xFFFF0000FFFFFFFF) ||| (w &&& 0x0000FFFF00000000) },
          (s.pwrctl &&& 0xFFFF0000FFFFFFFF) ||| (w &&& 0x0000FFFF00000000)),
        (0x100098, { s with evstat := s.evstat &&& ~~~w }, s.evstat &&& ~~~w),
        (0x1000A0, { s with evdest := w &&& 0x000003FF000007FF }, w &&& 0x000003FF000007FF),
        (0x100100, { s with migbpt := w &&& 0x000FFFFFFFFF0000 }, w &&& 0x000FFFFFFFFF0000),
        (0x100108, { s with migfree := w &&& 0x000FFFFFFFFFF01F }, w &&& 0x000FFFFFFFFFF01F),
        (0x100110, { s with migfht := w }, w), (0x100118, { s with migrel := w &&& 0x000FFFFFFFFFF01F }, w &&& 0x000FFFFFFFFFF01F),
        (0x100120, { s with migrht := w }, w), (0x100308, { s with attbuf := w &&& 0x000FFFFFFFFFFFC0 }, w &&& 0x000FFFFFFFFFFFC0)] :
        List (Nat × State × Dword)),
      exec (.registerWrite row.1 8 w) s = .next row.2.1
        ∧ (s.moves = [] → regRead row.2.1 row.1 = some row.2.2.toNat))
    ∧ (∀ m, s.moves = [m] → s.migctl.extractLsb' 1 3 = 0 → regRead s 0x100028 = some (s.migctl ||| 8).toNat)
    ∧ (∀ i, i < 60 → exec (.registerWrite (0x101000 + 8 * i) 8 w) s = .next { s with ppmask := s.ppmask.set i w })
    ∧ (∀ i, i < 1024 → ∃ x, exec (.registerWrite (0x104000 + 8 * i) 8 w) s = .next { s with celltab := s.celltab.set i x }
        ∧ x.extractLsb' 8 8 = w.extractLsb' 8 8 ∧ x.getLsbD 0 = w.getLsbD 0
        ∧ x.getLsbD 1 = (s.celltab.getD i 0).getLsbD 1 ∧ x.getLsbD 2 = (s.celltab.getD i 0).getLsbD 2)
    ∧ (size ≠ 8 ∨ off % 8 ≠ 0 → exec (.registerWrite off size w) s = .next s)
    ∧ (∃ r, exec (.registerWrite 0x100040 8 w) s = .next r ∧ { r with rascnt := s.rascnt } = s
      ∧ ∀ x ∈ ([(40, 24), (24, 16), (8, 16), (0, 8)] : List (Nat × Nat)),
        r.rascnt.extractLsb' x.1 x.2 = if w.getLsbD x.1 then 0 else s.rascnt.extractLsb' x.1 x.2)
    ∧ (∀ i, n < 64 → i < 24 → n < s.ctxs.length → let at_ (o : Nat) : Instr := .registerWrite (0x1000 * n + o) 8 w
      let fx := (s.ctx n).fx
      let set_ (x : FxRegs) : State := s.modCtx n fun c => { c with fx := x }
      if (s.ctx n).status = .loaded then
        exec (at_ (0x100 + 8 * i)) s = .next (set_ { fx with cnt := fx.cnt.set i (w.truncate 32) })
        ∧ exec (at_ 0x1C0) s = .next (set_ { fx with ctl := w &&& 0x80000000FFFFFFFF })
        ∧ exec (at_ 0x1C8) s = .next (set_ { fx with stat := fx.stat &&& ~~~w })
        ∧ regRead s (0x1000 * n + 0x100 + 8 * i) = some (fx.cnt.getD i 0).toNat
        ∧ regRead s (0x1000 * n + 0x1C0) = some fx.ctl.toNat ∧ regRead s (0x1000 * n + 0x1C8) = some fx.stat.toNat
        ∧ regRead s (0x1000 * n + 0x1D0) = some fx.kent.toNat
      else ∀ o ∈ ([0x100 + 8 * i, 0x1C0, 0x1C8] : List Nat), exec (at_ o) s = .next s)
    ∧ (n ∉ s.eccBusy → exec (.eccRetry n) s = .next s)
    ∧ (n ∈ s.eccBusy → let bad := s.ecc.find? fun e => e.1 == n
      let kind : BitVec 3 := if (bad.map fun e => e.2.2).getD false then 3 else if (bad.map fun e => e.2.1).getD false then 2 else 1
      ∃ r, exec (.eccRetry n) s = .next r ∧ n ∉ r.eccBusy ∧ (∀ x ∈ r.ecc, x.1 ≠ n) ∧ r.threads = s.threads
        ∧ (s.raslog.length < 32 → ∃ x, r.raslog = s.raslog ++ [x] ∧ x.w0.extractLsb' 59 3 = kind))
    ∧ (s.ecc = [] → s.eccFix = [] → (∀ l ∈ s.eccBusy, regionOf l ≠ n) → (∀ x ∈ s.home, regionOf x.req.line = n → x.kind ≠ .unread) →
      let owns (c : Nat) : Bool := s.meta_.any fun y => regionOf y.1 == n && decide (2 ≤ dState y.2) && dOwner y.2 == c
      exec (.scrubPass n) s = .next { s with regions := s.regions.filter fun x => x.2 != n || owns x.1 })
    ∧ exec .raspop s = .next { s with raslog := s.raslog.drop 1 }
    ∧ (∃ r, exec .hotLimit s = .next r ∧ { r with pwrctl := s.pwrctl, agenda := s.agenda } = s
      ∧ r.pwrctl = (s.pwrctl &&& ~~~0xFF0000) ||| 0x100001 ∧ ∃ e ∈ r.agenda, e.1 ≤ s.now ∧ e.2 = .dispatchRetry)
    ∧ exec .hotLimitClear s = .next { s with pwrctl := s.pwrctl &&& ~~~1 }
    ∧ (∃ r, exec .powerAdjust s = .next r ∧ { r with pwrctl := s.pwrctl, free := s.free, agenda := s.agenda } = s
      ∧ r.pwrctl &&& ~~~0xFF0000 = s.pwrctl &&& ~~~0xFF0000 ∧ (s.now + 100000, .powerAdjust) ∈ r.agenda
      ∧ let p := Config.freePower s.free
        let cap := max 800 (min 3200 (s.pwrctl.extractLsb' 32 16).toNat)
        let b := (s.pwrctl.extractLsb' 16 8).toNat
        (r.pwrctl.extractLsb' 16 8).toNat = if s.pwrctl.getLsbD 0 then b else if cap < p then max 16 (b - 8)
          else if 10 * p < 9 * cap then min 192 (b + 8) % 256 else b)
    ∧ (die < 6 → ∃ r x, exec (.ageRecompute die slack eolh) s = .next r ∧ r.ages = s.ages.set die x
      ∧ x.extractLsb' 0 32 = eolh ∧ x.extractLsb' 48 8 = slack
      ∧ (x.getLsbD 63 = true ↔ (s.ages.getD die 0).getLsbD 63 = true ∨ eolh.toNat < 8760)
      ∧ (((s.ages.getD die 0).getLsbD 63 = true ∨ 8760 ≤ eolh.toNat) → { r with ages := s.ages } = s))
    ∧ (s.attcmd.getLsbD 62 = true → exec (.attcmdGo w) s = .next s)
    ∧ (s.attcmd.getLsbD 62 = false → ∃ r, exec (.attcmdGo w) s = .next r
      ∧ r.attcmd = (w &&& 0xFFFFFFFF) ||| 0x4000000000000000 ∧ { r with attcmd := s.attcmd, agenda := s.agenda } = s
      ∧ (s.now + 1, .attestationReportDone) ∈ r.agenda)
    ∧ exec (.measExtend k.val d) s = .next { s with
        meas := s.meas.set k.val (flip256 (sha256 (beBytes 32 (flip256 (s.meas.getD k.val 0)).toNat ++ beBytes 32 (flip256 d).toNat))) }
    ∧ (w.extractLsb' 0 2 = 3 → exec (.tlbicmdWrite w) s = .next s)
    ∧ (w.extractLsb' 0 2 = 1 ∨ w.extractLsb' 0 2 = 2 → ∃ r, exec (.tlbicmdWrite w) s = .next r ∧ r.tlbiOpen = s.tlbiOpen ++ [s.seq]
      ∧ (s.now + 1, .invalidation ⟨s.seq, s.self, (w.extractLsb' 16 16).toNat,
          if w.extractLsb' 0 2 = 1 then .context else .all⟩) ∈ r.agenda ∧ r.seq = s.seq + 1)
    ∧ (w.extractLsb' 0 2 = 0 → if s.tlbiva.extractLsb' 57 7 ≠ 0 then exec (.tlbicmdWrite w) s = .next s
      else ∃ r, exec (.tlbicmdWrite w) s = .next r ∧ r.tlbiOpen = s.tlbiOpen ++ [s.seq]
        ∧ (s.now + 1, .invalidation ⟨s.seq, s.self, (w.extractLsb' 16 16).toNat, .page s.tlbiva.toNat⟩) ∈ r.agenda ∧ r.seq = s.seq + 1)
    ∧ (s.ctxcmd.getLsbD 62 = true → ∀ j ∈ ([.ctxcmdLoad w, .ctxcmdPark w, .ctxcmdForget w] : List Instr), exec j s = .next s)
    ∧ (s.ctxcmd.getLsbD 62 = false →
      let slot := (w.extractLsb' 0 8).toNat
      let block := (w.extractLsb' 12 40).toNat * 4096
      let c := s.ctx slot
      let err (j : Instr) (e : BitVec 2) : Prop := ∃ x, exec j s = .next { s with ctxcmd := x } ∧ x.extractLsb' 8 2 = e
        ∧ x.getLsbD 62 = false ∧ x.extractLsb' 0 8 = w.extractLsb' 0 8 ∧ x.extractLsb' 12 40 = w.extractLsb' 12 40
      (64 ≤ slot → err (.ctxcmdLoad w) 3 ∧ err (.ctxcmdPark w) 3 ∧ err (.ctxcmdForget w) 3)
      ∧ (slot < 64 → if c.status = .loaded ∨ c.status = .parked ∧ c.block ≠ block then err (.ctxcmdLoad w) 2
        else ∃ r, exec (.ctxcmdLoad w) s = .next r ∧ { r with ctxcmd := s.ctxcmd, agenda := s.agenda } = s
          ∧ r.ctxcmd.getLsbD 62 = true ∧ ∃ x ∈ r.agenda, x.1 ≤ s.now + 1 ∧ x.2 = .ctxcmdComplete)
      ∧ (c.status ≠ .loaded → err (.ctxcmdPark w) 3) ∧ (c.status ≠ .parked → err (.ctxcmdForget w) 3))
    ∧ (s.evcmd.getLsbD 62 = true → exec (.evcmdEvict w) s = .next s ∧ exec (.evcmdEnd w) s = .next s)
    ∧ (s.evcmd.getLsbD 62 = false → (∀ i, i < 64 → (s.ctx i).status = .loaded → (s.ctx i).num ≠ (w.extractLsb' 0 16).toNat) →
      ∀ row ∈ ([(.evcmdEvict w, 0x1000000000010000), (.evcmdEnd w, 0x2000000000010000)] : List (Instr × Dword)),
        exec row.1 s = .next { s with evcmd := row.2 + (w &&& 0xFFFF) })
    ∧ (s.pgcmd.getLsbD 61 = true → exec (.pgcmdGo w) s = .next s ∧ exec (.pgcmdSweep w) s = .next s)
    ∧ (s.pgcmd.getLsbD 61 = false → let page := (w.extractLsb' 16 36).toNat
      if localPage s page = false then
        ∀ j ∈ ([.pgcmdGo w, .pgcmdSweep w] : List Instr), exec j s = .next { s with pgcmd := (w &&& 0x000FFFFFFFFF0F00) + 1 }
      else (s.pages.map Prod.fst).Pairwise (· < ·) → ∃ r, exec (.pgcmdGo w) s = .next r
        ∧ { r with pgcmd := s.pgcmd, pages := s.pages } = s ∧ r.pgcmd = (w &&& 0x000FFFFFFFFF0F00) ||| (s.pgcmd &&& ~~~w &&& 1)
        ∧ (pageRec r (page % 2 ^ 26)).extractLsb' 8 4 = w.extractLsb' 8 4
        ∧ ∀ p, p ≠ page % 2 ^ 26 → pageRec r p = pageRec s p)
    ∧ (s.tlbiOpen = [] → exec (.tlbicmdRead n) s = .next { s with outbox := .registerAnswer n 1 :: s.outbox })
    ∧ (s.tlbiOpen ≠ [] → exec (.tlbicmdRead n) s = .next { s with tlbiRead := s.tlbiRead ++ [n] })
    ∧ (n < s.cores.length →
      ((∀ x ∈ s.cores, x.test = .none) → ∃ r, exec (.infieldTestDrain n) s = .next r
        ∧ r.core n = { s.core n with test := .draining s.now }
        ∧ (∀ j, j ≠ n → r.core j = s.core j) ∧ (s.now + 25000000, .infieldTestTimeout n) ∈ r.agenda
        ∧ (s.now, .infieldTestStart n) ∈ r.agenda ∧ ∃ e ∈ r.agenda, e.1 ≤ s.now ∧ e.2 = .dispatchRetry)
      ∧ ((∃ x ∈ s.cores, x.test ≠ .none) → exec (.infieldTestDrain n) s = .next s)
      ∧ (∀ t, (s.core n).test = .draining t → coreFree s n = true → ∃ r, exec (.infieldTestStart n) s = .next r
        ∧ r.core n = { s.core n with test := .testing s.now } ∧ (s.now + 200000, .infieldTestEnd n) ∈ r.agenda)
      ∧ (∀ t, (s.core n).test = .testing t → ∃ r, exec (.infieldTestEnd n) s = .next r ∧ r.core n = { s.core n with test := .none })
      ∧ (∀ t, (s.core n).test = .draining t → t + 25000000 ≤ s.now → ∃ r, exec (.infieldTestTimeout n) s = .next r
        ∧ r.core n = { s.core n with test := .none } ∧ r.outbox = .report n :: s.outbox))

/-- 05 R122, R124, R136 to R138, 16 R359, 17 R364: cells and links. A cell table store makes a FREE cell ALIVE with a new
incarnation, and a DEAD one that is recovered FREE; a monitor's store declares a cell dead. A heartbeat makes a SUSPECT cell
ALIVE and begins its 30,000 ticks again; without one in 30,000 ticks an ALIVE cell is SUSPECT; a package sends its own every
10,000, one over each live link. A monitor declares a cell dead when a majority of them has held it SUSPECT for
100,000 ticks. A death is declared at most once for an incarnation: the lines of the dead cell's endpoints
go, and its regions are scanned; a package whose own cell is dead isolates itself, and loses every other endpoint. Messages of
endpoints that are absent, of dead cells, or of others when isolated, are discarded. A link error is resent, and the eighth
running takes the link down; a link that goes down is noted in the log, and an ALIVE cell whose endpoints no link reaches any
more is SUSPECT. Recovery takes the lowest region of the dead cell's map: it waits while a line of it is not readable, has every
line that the cell owns cleaned up, which leaves it uncached and poisoned, then clears the region and goes on; with none left it sets
RDONE and tells the controller (R140; it looks again after 16 ticks, log 2). That a package's own heartbeat counts for its own cell is the model's choice (log 28), and so is that errors run
on while no flit has come through between them (log 48). -/
def Obligations.CellEvents : Prop :=
  ∀ (s : State) (cell ep port : Nat) (inc : BitVec 16) (suspect again : Bool), s.up → s.cstate.length = 256 → cell < 256 →
    let old := s.cstate.getD cell 0
    let state (t : State) (c : Nat) : Nat := ((t.cstate.getD c 0).extractLsb' 0 3).toNat
    let others (t : State) : Prop := (∀ c, c ≠ cell → t.cstate.getD c 0 = s.cstate.getD c 0) ∧ t.mem = s.mem ∧ t.threads = s.threads
      ∧ t.cores = s.cores ∧ t.l2 = s.l2 ∧ t.meta_ = s.meta_
    let dead := state s (((s.celltab.getD ep 0).extractLsb' 8 8).toNat) = 3
    let member := ep ≤ (s.spancfg.extractLsb' 21 10).toNat ∧ (s.celltab.getD ep 0).getLsbD 0 = true
    let foreign := s.isolated = true ∧ cellOf s ep ≠ cellOf s s.self
    (state s cell = 0 → ∃ r, exec (.cstateWriteAlive cell) s = .next r ∧ state r cell = 1 ∧ others r
      ∧ (r.cstate.getD cell 0).extractLsb' 32 16 = old.extractLsb' 32 16 + 1 ∧ (r.cstate.getD cell 0).getLsbD 3 = false)
    ∧ (state s cell ≠ 0 → exec (.cstateWriteAlive cell) s = .next s)
    ∧ (state s cell = 3 → old.getLsbD 3 = true → ∃ r, exec (.cstateWriteFree cell) s = .next r ∧ state r cell = 0 ∧ others r)
    ∧ (state s cell ≠ 3 ∨ old.getLsbD 3 = false → exec (.cstateWriteFree cell) s = .next s)
    ∧ (s.self ∈ monitors s → (state s cell = 1 ∨ state s cell = 2) → ∃ r, exec (.cstateWriteDead cell) s = .next r
      ∧ (s.now, .deathDeclaration cell (old.extractLsb' 32 16)) ∈ r.agenda
      ∧ r.outbox = .death cell (old.extractLsb' 32 16) :: s.outbox ∧ others r)
    ∧ (s.self ∉ monitors s → exec (.cstateWriteDead cell) s = .next s)
    ∧ (∀ j ∈ ([.heartbeat ep, .suspectReport ep cell suspect] : List Instr), (dead ∨ ¬ member ∨ foreign) → exec j s = .next s)
    ∧ (member → ¬ dead → ¬ foreign → cellOf s ep = cell → ∃ r, exec (.heartbeat ep) s = .next r ∧ others r
      ∧ state r cell = (if state s cell = 2 then 1 else state s cell) ∧ (cell, s.now) ∈ r.beats
      ∧ (s.now + 30000, .heartbeatTimeout cell) ∈ r.agenda)
    ∧ (cellOf s s.self = cell → ∃ r, exec .heartbeatSend s = .next r ∧ others r ∧ (s.now + 10000, .heartbeatSend) ∈ r.agenda
      ∧ (∀ p, p < 24 → (s.links.getD p (false, 0)).1 = true → .heartbeat p ∈ r.outbox)
      ∧ (∀ p, .heartbeat p ∈ r.outbox → .heartbeat p ∈ s.outbox ∨ p < 24 ∧ (s.links.getD p (false, 0)).1 = true)
      ∧ state r cell = (if state s cell = 2 then 1 else state s cell))
    ∧ (∃ r, exec (.heartbeatTimeout cell) s = .next r ∧ others r ∧ state r cell =
        (if state s cell = 1 ∧ ∀ b, s.beats.find? (fun b => b.1 == cell) = some b → b.2 + 30000 ≤ s.now then 2 else state s cell))
    ∧ (member → ¬ dead → ¬ foreign → s.self ∈ monitors s → ep ∈ monitors s → (∀ x ∈ s.suspicions, ¬ (x.ep = ep ∧ x.cell = cell)) →
      ∃ r, exec (.suspectReport ep cell true) s = .next r ∧ r.suspicions = s.suspicions ++ [⟨cell, ep, s.now⟩] ∧ others r
        ∧ ∃ e ∈ r.agenda, e.1 ≤ s.now + 100000 ∧ e.2 = .monitorDeclare cell)
    ∧ (let held := (s.suspicions.filter fun x => x.cell == cell && decide (x.since + 100000 ≤ s.now)).length
      let declares := s.self ∈ monitors s ∧ (monitors s).length < 2 * held ∧ (state s cell = 1 ∨ state s cell = 2)
      (¬ declares → exec (.monitorDeclare cell) s = .next s)
      ∧ (declares → ∃ r, exec (.monitorDeclare cell) s = .next r ∧ { r with agenda := s.agenda } =
          { s with outbox := .death cell (old.extractLsb' 32 16) :: s.outbox }
        ∧ (s.now, .deathDeclaration cell (old.extractLsb' 32 16)) ∈ r.agenda))
    ∧ ((¬ (state s cell = 1 ∨ state s cell = 2) ∨ old.extractLsb' 32 16 ≠ inc) → exec (.deathDeclaration cell inc) s = .next s)
    ∧ ((state s cell = 1 ∨ state s cell = 2) → old.extractLsb' 32 16 = inc → s.copies = [] → s.reqs = [] → s.home = [] →
      let gone (e : Nat) : Prop := if cellOf s s.self = cell then e ≠ s.self else cellOf s e = cell
      ∃ r, exec (.deathDeclaration cell inc) s = .next r ∧ state r cell = 3 ∧ r.isolated = (s.isolated || cellOf s s.self == cell)
        ∧ (∀ x ∈ r.suspicions, x.cell ≠ cell) ∧ r.mem = s.mem ∧ (∃ e ∈ r.agenda, e.1 ≤ s.now ∧ e.2 = .recoveryRegionScan cell)
        ∧ ∀ l, (l ∈ r.l2 ↔ l ∈ s.l2 ∧ ¬ gone (lineEp l.line)))
    ∧ (port < s.links.length → ∃ r, exec (.linkCrcError ⟨port, again⟩) s = .next r ∧ .resend port ∈ r.outbox
      ∧ let count := if again then (s.links.getD port (false, 0)).2 + 1 else 1
        r.links = s.links.set port ((s.links.getD port (false, 0)).1, count) ∧ others r ∧ r.cstate = s.cstate
        ∧ (8 ≤ count → (s.now, .linkDown port) ∈ r.agenda))
    ∧ (port < s.links.length → (s.links.getD port (false, 0)).1 = true → ∃ r, exec (.linkDown port) s = .next r
      ∧ r.links = s.links.set port (false, 0) ∧ (s.raslog.length < 32 → ∃ x, r.raslog = s.raslog ++ [x] ∧ x.w0.extractLsb' 59 3 = 4 ∧ x.w0.getLsbD 63 = true)
      ∧ (∀ c, c < 256 → let of (e : Nat) : Prop := present s e = true ∧ cellOf s e = c ∧ e ≠ s.self
        let cut : Prop := state s c = 1 ∧ (∃ e, of e) ∧ ∀ e, of e → pathsTo r (spanId s) e = []
        (cut → state r c = 2) ∧ (¬ cut → state r c = state s c))
      ∧ r.mem = s.mem ∧ r.threads = s.threads ∧ r.cores = s.cores ∧ r.l2 = s.l2 ∧ r.meta_ = s.meta_)
    ∧ ((s.links.getD port (false, 0)).1 = false → exec (.linkDown port) s = .next s)
    ∧ (state s cell = 3 → old.getLsbD 3 = false → (∀ g, (cell, g) ∉ s.regions) → ∃ r, exec (.recoveryRegionScan cell) s = .next r
      ∧ others r ∧ state r cell = 3 ∧ (r.cstate.getD cell 0).getLsbD 3 = true ∧ r.outbox = .recovered cell :: s.outbox)
    ∧ (∀ g, (cell, g) ∈ s.regions → (∀ h, (cell, h) ∈ s.regions → g ≤ h) → s.ecc = [] → s.eccFix = [] →
      let busy := (∃ l ∈ s.eccBusy, regionOf l = g) ∨ ∃ x ∈ s.home, regionOf x.req.line = g ∧ x.kind = .unread
      let owned (l : Nat) : Prop := ∃ m ∈ s.meta_, m.1 = l ∧ regionOf l = g ∧ m.2.getLsbD 63 = true ∧ (m.2.extractLsb' 54 8).toNat = cell
      (busy → exec (.recoveryRegionScan cell) s = .next (s.post (s.now + 16) (.recoveryRegionScan cell)))
      ∧ (¬ busy → (∀ l, ¬ owned l) → exec (.recoveryRegionScan cell) s = .next (State.post { s with
          regions := s.regions.filter fun x => x != (cell, g) } s.now (.recoveryRegionScan cell)))
      ∧ (¬ busy → (∃ l, owned l) → ∃ r, exec (.recoveryRegionScan cell) s = .next r ∧ others r ∧ r.regions = s.regions
        ∧ (s.now + 16, .recoveryRegionScan cell) ∈ r.agenda
        ∧ ∀ l, owned l → ∃ x ∈ r.home, x.kind = .dead cell ∧ x.req.line = l))
    ∧ (∀ x : HomeTxn, s.home = [x] → x.kind = .dead cell → x.begun = false → x.dropped = false → x.denied = false →
      x.req.ep = s.self → s.recalls = [] → s.jobs = [] → s.l2w = [] → s.ecc = [] → s.eccFix = [] → s.eccBusy = [] → s.Inv →
      s.l2get x.req.line none = none → nextWrite s x.req.line ≤ s.now →
      metaOf s x.req.line = 0x8000000000000000 + (BitVec.ofNat 64 cell <<< 54) → ∃ r, exec (.leaseExpiry x.req.line) s = .next r
        ∧ metaOf r x.req.line = 0x8000 ∧ (∀ l, l ≠ x.req.line → metaOf r l = metaOf s l) ∧ r.mem = s.mem ∧ r.home = [])

/-- 05 R125, R128 to R132, 02 R63, R65, 01 R31, R32: a request of another package for a line homed here that no cell holds, with
the line idle, its page's class admitting the requester's cell and its data in memory. RDS and PRF answer the data and make the
cell a sharer, unless the copy is untracked; NTR answers the data alone; RDX and UPG give the line to the cell, which owns it,
and its region is noted for recovery; WRF writes the bytes of its mask, ATF performs its atomic, and the line stays uncached,
but a home performs one write to a line in a tick (03 R69), and another waits for the next; a
WBK of a cell that does not own the line is accepted and changes nothing. A request that would own or write, of a cell that the
class does not admit, is DENIED. A request for a line that is not homed here, of an absent endpoint or of a dead cell, is
discarded. For a line that another cell owns, RDS asks the owner to keep a copy, RDX takes it away.
05 R144, R145, 17 R369: a proposal whose back-pointer or PTE cannot move begins its counters afresh, and so does one that is given no
page; else the move begins. Step 1 recalls the page's copies; step 2 waits for what writes and for lines that do not read, then
writes the lines to the new page; step 4 compares and swaps the PTE and invalidates the address at every package; step 6 puts the
page in the ring of released pages. A move that is abandoned gives its page back, but not to a dead cell. At the end the packages
that wait hear MIGRATION-DONE, and the counters are zero. A page is given from the free ring, written line by line, and taken
back. Whether a page is written and which is given are free values (log 3); the ticks at which it looks again are the model's (log 2). -/
def Obligations.HomeEvents : Prop :=
  (∀ (s : State) (m : Move), s.up → s.Inv → m ∈ s.moves → (∀ x ∈ s.moves, x.page = m.page → x = m) → localPage s m.page = true →
    let ep := m.new / 2 ^ 26
    let idx := m.page % 2 ^ 26
    let copy : Instr := .migrationCopyPage (.own m.page)
    let finish : Instr := .migrationFinish (.own m.page)
    let step (k : Nat) (a : List Nat) : List Move := s.moves.map fun x => if x.page = m.page then { x with step := k, acks := a } else x
    let ended (back : Prop) (t : State) : Prop := t.moves = s.moves.filter (fun x => x.page != m.page)
      ∧ pageRec t idx = pageRec s idx &&& 0xFFF ∧ (∀ e ∈ m.waiters, shunned s e = false → .migrationDone e m.page ∈ t.outbox)
      ∧ (.pageBack ep m.new ∈ t.outbox ↔ back ∨ .pageBack ep m.new ∈ s.outbox)
    let stored := s.devDone.any (fun d => d.1 == m.swap.asDevice) || s.l2w.any fun w => w.asked && w.asDevice == m.swap.asDevice
    (shunned s ep = true → m.step < 5 → (m.step = 4 → stored = false) → ∃ t, exec copy s = .next t ∧ ended False t)
    ∧ (shunned s ep = false → m.step = 1 → s.home = [] → ∃ t, exec copy s = .next t ∧ t.moves = step 2 m.acks ∧ t.mem = s.mem
        ∧ t.meta_ = s.meta_ ∧ (s.now + 16, copy) ∈ t.agenda
        ∧ ∀ l, (∃ x ∈ t.home, x.kind = .localWrite ∧ x.req.line = l) ↔ pageOf l = m.page ∧ (metaOf s l).extractLsb' 62 2 ≠ 0)
    ∧ (shunned s ep = false → m.step = 2 → (∃ x ∈ s.home, pageOf x.req.line = m.page ∧ (x.kind = .localWrite ∨ x.begun = true ∧
        x.kind ∈ [HomeKind.rdx, .upg, .wrf, .atf])) → exec copy s = .next (s.post (s.now + 16) copy))
    ∧ (shunned s ep = false → m.step = 2 → s.home = [] → (∀ l, pageOf l = m.page → (metaOf s l).getLsbD 63 = false) → s.ecc = [] →
      s.eccFix = [] → s.eccBusy = [] →
      (Config.pageWritten s.free = false → ∃ t, exec copy s = .next t ∧ ended True t)
      ∧ (Config.pageWritten s.free = true → ∃ t ls, exec copy s = .next t ∧ t.moves = step 4 m.acks ∧ (s.now, copy) ∈ t.agenda
        ∧ t.outbox = .pageWrite ep m.new ls ((pageRec s idx).extractLsb' 8 4).toNat :: s.outbox ∧ ls.length = 512
        ∧ t.mem = s.mem ∧ ∀ i, i < 512 → let l := m.page * 512 + i
          ls.getD i (0, false) = (match s.l2get l none with | some x => x.data | none => memLine s l, (metaOf s l).getLsbD 15)))
    ∧ (shunned s ep = false → m.step = 4 → takeExpired s (m.pteAt / 128) true = (none, s) → ∀ v u, u.moves = s.moves → u.Inv →
      u.celltab = s.celltab → u.cstate = s.cstate → u.isolated = s.isolated → u.spancfg = s.spancfg → u.outbox = s.outbox → u.pages = s.pages →
      deviceStore s m.swap = (.done v, u) →
      (v.p = true ∨ v.v ≠ m.pte → ∃ t, exec copy s = .next t ∧ ended True t)
      ∧ (v.p = false → v.v = m.pte → ∃ t a, exec copy s = .next t ∧ t.moves = step 5 a ∧ t.mem = u.mem ∧ (∃ x ∈ t.agenda, x.2 = finish)
        ∧ ∀ e, e ≤ (s.spancfg.extractLsb' 21 10).toNat → present s e = true → isHost s e = false → ∃ i ∈ a,
          let msg : InvMsg := ⟨i, s.self, m.ctx, .page m.va⟩
          if e = s.self then ∃ x ∈ t.agenda, x.2 = .invalidation msg
          else shunned s e = false → pathsTo u (spanId s) e ≠ [] → .inval e msg ∈ t.outbox))
    ∧ (m.step = 5 → m.acks = [] → let head := (s.migrht.extractLsb' 32 32).toNat
      let tail := (s.migrht.extractLsb' 0 32).toNat
      let size := 2 ^ (s.migrel.extractLsb' 0 5).toNat
      let write := physWrite s 0 ((s.migrel.extractLsb' 12 40).toNat * 4096 + 8 * (head % size)) 8 (m.page * 65536) false false none
      ((head + 2 ^ 32 - tail) % 2 ^ 32 = size → exec finish s = .next (s.post (s.now + 16) finish))
      ∧ ((head + 2 ^ 32 - tail) % 2 ^ 32 ≠ size → ∀ v u, write = (.done v, u) → u.moves = s.moves → u.Inv → u.pages = s.pages →
        u.celltab = s.celltab → u.cstate = s.cstate → u.isolated = s.isolated → u.spancfg = s.spancfg → u.outbox = s.outbox → u.migrht = s.migrht →
        ∃ t, exec finish s = .next t ∧ ended False t ∧ (t.migrht.extractLsb' 32 32).toNat = (head + 1) % 2 ^ 32
          ∧ (t.migrht.extractLsb' 0 32).toNat = tail)))
  ∧ (∀ (s u v : State) (page : Nat) (d e : LineData) (p z : Bool), s.up → s.Inv → localPage s page = true → (∀ x ∈ s.moves, x.page ≠ page) →
    s.moves.length < 4 → s.migctl.getLsbD 0 = true →
    let idx := page % 2 ^ 26
    let start : Instr := .migrationStart (.own page)
    let w : Dword := d.truncate 64
    let pteAt := (w.extractLsb' 3 49).toNat * 8
    let pte : Dword := e.truncate 64
    let afresh (x : State) : State := pagePut x idx (pageRec x idx &&& 0xFFF)
    physRead s 0 ((s.migbpt.extractLsb' 16 36).toNat * 65536 + 16 * idx) 16 false false = (.data d p, u) →
    (p = true ∨ w.getLsbD 0 = false → exec start s = .next (afresh u))
    ∧ (p = false → w.getLsbD 0 = true → physRead u 0 pteAt 8 false false = (.data e z, v) →
      let fits := z = false ∧ pte.getLsbD 0 = true ∧ pte.getLsbD 1 = true ∧ malformed 0 pte = false ∧ pte.getLsbD 5 = false
        ∧ pte.getLsbD 8 = false ∧ pte.getLsbD 9 = true ∧ pte.extractLsb' 6 2 = 0 ∧ (pte.extractLsb' 16 36).toNat = page
      (¬ fits → exec start s = .next (afresh v))
      ∧ (fits → ∀ x, (takePage v ((pageRec s idx).extractLsb' 56 8).toNat = (none, x) → exec start s = .next (afresh x))
        ∧ ∀ n, takePage v ((pageRec s idx).extractLsb' 56 8).toNat = (some n, x) → exec start s = .next (State.post { x with
          moves := x.moves ++ [⟨page, n, pteAt, pte, (d.extractLsb' 64 16).toNat, (d.extractLsb' 80 41).toNat * 65536, 1, [], []⟩] }
          s.now (.migrationCopyPage (.own page))))))
  ∧ (∀ (s : State) (ep page k : Nat) (ls : List (LineData × Bool)), s.up → s.Inv →
    let tail := (s.migfht.extractLsb' 0 32).toNat
    let head := (s.migfht.extractLsb' 32 32).toNat
    let size := 2 ^ (s.migfree.extractLsb' 0 5).toNat
    let entry (i : Nat) : Nat := (s.migfree.extractLsb' 12 40).toNat * 4096 + 8 * (i % size)
    let give : Instr := .migrationStart (.give ep)
    let back : Instr := .migrationFinish (.back ep page)
    let taken : Instr := .migrationCopyPage (.write ep page ls k)
    (shunned s ep = true → ∀ i ∈ [give, back, taken], exec i s = .next s)
    ∧ (localPage s page = false → ∀ i ∈ [back, taken], exec i s = .next s)
    ∧ (shunned s ep = false →
      (head = tail → exec give s = .next (s.say (.pageGive ep none)))
      ∧ (head ≠ tail → takeExpired s (entry tail / 128) false = (none, s) → ∀ d u, physRead s 0 (entry tail) 8 false false = (.data d false, u) →
        ∃ t, exec give s = .next t ∧ { t with migfht := u.migfht, outbox := u.outbox } = u
          ∧ t.outbox = .pageGive ep (some (d.extractLsb' 16 36).toNat) :: u.outbox
          ∧ (t.migfht.extractLsb' 0 32).toNat = (tail + 1) % 2 ^ 32))
    ∧ (shunned s ep = false → localPage s page = true →
      (ls.length = 512 → ∃ t, exec taken s = .next t ∧ (pageRec t (page % 2 ^ 26)).toNat = k % 16 * 256 ∧ t.outbox = s.outbox
        ∧ (∀ i, i < 512 → let x := ls.getD i (0, false)
          memLine t (page * 512 + i) = x.1 ∧ metaOf t (page * 512 + i) = if x.2 then 0x8000 else 0)
        ∧ ∀ l, pageOf l ≠ page → metaOf t l = metaOf s l)
      ∧ ((head + 2 ^ 32 - tail) % 2 ^ 32 = size → exec back s = .next (s.post (s.now + 16) back))
      ∧ ((head + 2 ^ 32 - tail) % 2 ^ 32 ≠ size → let at_ := (tail + 2 ^ 32 - 1) % 2 ^ 32
        takeExpired s (entry at_ / 128) true = (none, s) → ∀ v u, physWrite s 0 (entry at_) 8 (page * 65536) false false none = (.done v, u) →
        ∃ t, exec back s = .next t ∧ { t with migfht := u.migfht } = u ∧ (t.migfht.extractLsb' 0 32).toNat = at_)))
  ∧ ∀ (s : State) (r : HomeReq) (q : AtomReq), s.up →
    let line := r.line
    let c := cellOf s r.ep
    let m := metaOf s line
    let psn := m.getLsbD 15
    let kept : Dword := if psn then 0x8000 else 0
    let data := memLine s line
    let cell : Dword := BitVec.ofNat 64 c
    let requests : List Instr := [.rds r, .rdx r, .upg r, .wrf r, .atf r, .ntr r, .prf r, .wbk r]
    isRegLine s line = false →
    ((isLocal s line = false ∨ present s r.ep = false ∨ deadCell s c = true ∨ s.isolated = true ∧ c ≠ cellOf s s.self) →
      ∀ j ∈ requests, exec j s = .next s)
    ∧ (isLocal s line = true → present s r.ep = true → deadCell s c = false → s.isolated = false → r.ep ≠ s.self → c < 256 →
      c ≠ cellOf s s.self → (s.meta_.map Prod.fst).Pairwise (· < ·) → s.home = [] → s.ecc = [] → s.eccBusy = [] → s.moves = [] →
      (∀ w ∈ s.l2w, w.line ≠ line) → s.l2get line none = none → r.cen = false → Mem.wf s.mem = true →
      let mayWrite := nextWrite s line ≤ s.now
      let answered (t : State) (k : AnsKind) (d : LineData) (has p : Bool) (res : Dword) : Prop :=
        t.outbox = .homeAns r.ep ⟨r.id, k, d, has, p, res⟩ :: s.outbox ∧ t.home = [] ∧ t.l2 = s.l2 ∧ t.threads = s.threads
        ∧ (∀ l, l ≠ line → metaOf t l = metaOf s l)
      (m &&& 0xFFFFFFFFFFFF7FFF = 0 → admits s (pclass s line) c = true →
        (∀ j ∈ ([.rds r, .prf r] : List Instr), ∃ t, exec j s = .next t ∧ answered t .data data true psn 0 ∧ t.mem = s.mem
          ∧ metaOf t line = if r.unt then m else 0x4008000000000000 + (cell <<< 43) + kept)
        ∧ (∃ t, exec (.ntr r) s = .next t ∧ answered t .data data true psn 0 ∧ t.mem = s.mem ∧ metaOf t line = m)
        ∧ (∀ row ∈ ([(.rdx r, .data), (.upg r, .grant)] : List (Instr × AnsKind)), ∃ t, exec row.1 s = .next t
          ∧ answered t row.2 data true psn 0 ∧ t.mem = s.mem ∧ metaOf t line = 0x8000000000000000 + (cell <<< 54) + kept
          ∧ (c, line % 2 ^ 35 / 2 ^ 14) ∈ t.regions)
        ∧ (¬ mayWrite → ∀ j ∈ ([.wrf r, .atf r] : List Instr), ∃ t, exec j s = .next t ∧ t.mem = s.mem ∧ t.outbox = s.outbox
          ∧ t.meta_ = s.meta_ ∧ (nextWrite s line, .leaseExpiry line) ∈ t.agenda ∧ ∃ x, t.home = [x] ∧ x.req = r)
        ∧ (mayWrite → r.atom = none → ∃ t, exec (.wrf r) s = .next t ∧ answered t .ack 0 false false 0
          ∧ memLine t line = lineMerge data r.data r.mask
          ∧ (∀ a, (a < lineOff line ∨ lineOff line + 128 ≤ a) → Mem.get t.mem a = Mem.get s.mem a)
          ∧ metaOf t line = if r.psn || (psn && r.mask != BitVec.allOnes 128) then 0x8000 else 0)
        ∧ (mayWrite → r.atom = some q → ∃ t, exec (.atf r) s = .next t
          ∧ answered t .result 0 false (atomApply q data psn).2.2.p (atomApply q data psn).2.2.v
          ∧ memLine t line = (atomApply q data psn).1
          ∧ (∀ a, (a < lineOff line ∨ lineOff line + 128 ≤ a) → Mem.get t.mem a = Mem.get s.mem a)
          ∧ metaOf t line = if (atomApply q data psn).2.1 then 0x8000 else 0)
        ∧ (exec (.wbk r) s = .next { s with outbox := .homeAns r.ep ⟨r.id, .ack, 0, false, false, 0⟩ :: s.outbox }))
      ∧ (admits s (pclass s line) c = false → ∀ j ∈ ([.rdx r, .upg r, .wrf r, .atf r] : List Instr), ∃ t, exec j s = .next t
        ∧ answered t .denied 0 false false 0 ∧ t.mem = s.mem ∧ metaOf t line = m)
      ∧ (admits s (pclass s line) c = true → m.extractLsb' 62 2 = 2 → (m.extractLsb' 54 8).toNat ≠ c →
        deadCell s (m.extractLsb' 54 8).toNat = false → ∀ e, recallEps s r.ep [(m.extractLsb' 54 8).toNat] = [e] →
        ∀ row ∈ ([(.rds r, 1), (.rdx r, 0), (.upg r, 0)] : List (Instr × Nat)), ∃ t i, exec row.1 s = .next t
          ∧ t.outbox = .recall e row.2 ⟨s.self, i, line⟩ :: s.outbox ∧ t.mem = s.mem ∧ t.meta_ = s.meta_
          ∧ ∃ x, t.home = [x] ∧ x.id = i ∧ x.wait = [e] ∧ x.begun = true ∧ x.req = r))

/-- 01 R36 to R38, 05 R128, R130, R135, R139, R144, R145, 13 R308: a recall that a package answers at once: of a line that its L2
does not hold, with nothing; of one it holds, whose leases are over and which has no write waiting, with its data when it is dirty
there. RECALL INV drops the line; DOWN keeps it, as owner of dirty data or as a sharer; COPY leaves it as it is; DWB keeps a
shared copy. A recall answer of a DEAD cell is discarded; one of several is noted at the request that awaits it. A CANCEL removes
the request that has not begun, and marks one that has. A request that is tried again is sent as it was, where a link still leads
to its home; an answer to no request changes nothing. The data that an RDS asked for enters the L2 as a shared copy, when a way of
its set is free. A request whose timer expires, not before it is due, is ended and its home is sent a CANCEL; loads that waited
for the line wait no more. A refused send of an interrupt sets DEN. At an invalidation every translation that it names goes from
every TLB, no other does. No page moves that is not homed here, that moves already, beside four others or without EN; and no move
ends before its acknowledgements. -/
def Obligations.Recalls : Prop :=
  ∀ (s : State) (r : Recall) (L : L2Line) (q : OutReq) (x : HomeTxn) (a : RecallAns) (h : HomeAns) (ep id uid slot grid : Nat) (desc : Dword)
    (m : InvMsg), s.up →
    (present s r.home = true → deadCell s (cellOf s r.home) = false → s.isolated = false → s.recalls = [] →
      let answer (d : Option LineData) (p k : Bool) : OutMsg := .recallAns r.home ⟨r.id, s.self, d, p, k⟩
      let own := L.st = .m ∨ L.st = .o
      let d := if L.st = .m ∨ L.st = .o then some L.data else none
      let is (t : State) (st : L2St) : Prop := t.l2get r.line none = some { L with st := st }
      let others (t : State) : Prop := (∀ l u, ¬ (l = r.line ∧ u = none) → t.l2get l u = s.l2get l u) ∧ t.mem = s.mem ∧ t.meta_ = s.meta_
      (s.l2get r.line none = none → ∀ j ∈ ([.recallInv r, .recallDown r, .recallCopy r, .recallDwb r] : List Instr),
        ∃ t, exec j s = .next t ∧ { t with agenda := s.agenda } = { s with outbox := answer none false false :: s.outbox })
      ∧ (s.l2get r.line none = some L → L.exp ≤ s.now → L.gained + 2 ≤ s.now → (∀ w ∈ s.l2w, w.line ≠ r.line) →
        (∃ t, exec (.recallInv r) s = .next t ∧ t.outbox = answer d L.psn false :: s.outbox ∧ t.l2get r.line none = none ∧ others t)
        ∧ (∃ t, exec (.recallDown r) s = .next t ∧ t.outbox = answer d L.psn true :: s.outbox ∧ (own → is t .o) ∧ (¬ own → is t .s)
          ∧ others t)
        ∧ (∃ t, exec (.recallCopy r) s = .next t ∧ t.outbox = answer d L.psn (L.st == .o || L.st == .s) :: s.outbox ∧ is t L.st
          ∧ others t)
        ∧ (∃ t, exec (.recallDwb r) s = .next t ∧ t.outbox = answer d L.psn true :: s.outbox ∧ is t .s ∧ others t)))
    ∧ (deadCell s (cellOf s a.ep) = true → exec (.recallAnswer a) s = .next s)
    ∧ (deadCell s (cellOf s a.ep) = false → x ∈ s.home → (∀ y ∈ s.home, y.id = x.id → y = x) → a.id = x.id → a.ep ∈ x.wait →
      (∃ e ∈ x.wait, e ≠ a.ep) →
      let noted : HomeTxn := { x with
        wait := x.wait.filter fun e => e != a.ep
        dirty := if a.dirty.isSome then a.dirty else x.dirty
        dirtyPsn := if a.dirty.isSome then a.psn else x.dirtyPsn
        kept := if a.kept then cellOf s a.ep :: x.kept else x.kept }
      exec (.recallAnswer a) s = .next { s with home := s.home.map fun y => if y.id = x.id then noted else y })
    ∧ (s.jobs = [] → ∃ t, exec (.cancel ⟨spanId s, ep⟩ id) s = .next t ∧ { t with home := s.home, ctxs := s.ctxs } = s
      ∧ (∀ y ∈ s.home, ¬ (y.req.ep = ep ∧ y.req.id = id) → y ∈ t.home)
      ∧ (∀ y ∈ s.home, y.req.ep = ep → y.req.id = id → y.begun = true → { y with dropped := true } ∈ t.home)
      ∧ ∀ y ∈ t.home, if y.req.ep = ep ∧ y.req.id = id then y.begun = true ∧ y.dropped = true else y ∈ s.home)
    ∧ exec (.retry id) s = .next (s.post (s.now + 100) (.retryResend id))
    ∧ ((∀ y ∈ s.reqs, y.id = q.id → y = q) → q ∈ s.reqs → q.ended = false →
      exec (.retryResend q.id) s = .next (if pathsTo s (spanId s) q.ep = [] then s
        else { s with outbox := .home q.ep q.kind q.req :: s.outbox }))
    ∧ ((∀ y ∈ s.reqs, y.id ≠ h.id) → exec (.homeAnswer h) s = .next s ∧ exec (.retryResend h.id) s = .next s)
    ∧ ((∀ y ∈ s.reqs, y.id = q.id → y = q) → q ∈ s.reqs → q.ended = false → q.kind = .rds → q.for_ = .line slot false → h.id = q.id →
      h.kind = .data → s.l2get q.line none = none → (∀ y ∈ s.reqs, y.waits = false) →
      (s.l2.filter fun l => sliceOf l.line == sliceOf q.line && Machine.setOf l.line == Machine.setOf q.line).length < 16 →
      ∃ t, exec (.homeAnswer h) s = .next t ∧ t.l2 = ⟨q.line, .s, none, 0, h.psn, h.data, s.now, 0⟩ :: s.l2
        ∧ (∀ y, y ∈ t.reqs ↔ y ∈ s.reqs ∧ y.id ≠ q.id) ∧ t.mem = s.mem ∧ t.meta_ = s.meta_ ∧ t.l2w = s.l2w ∧ t.outbox = s.outbox)
    ∧ ((∀ y ∈ s.reqs, y.id ≠ id) → exec (.requestTimeout id) s = .next s)
    ∧ ((∀ y ∈ s.reqs, y.id = q.id → y = q) → q ∈ s.reqs → q.ended = false →
      let cancel := if pathsTo s (spanId s) q.ep = [] then s.outbox else .cancel (spanId s) q.ep q.id :: s.outbox
      let ended := s.reqs.map fun y => if y.id = q.id then { y with ended := true } else y
      (s.now < q.due → exec (.requestTimeout q.id) s = .next s)
      ∧ (q.due ≤ s.now → q.for_ = .line slot false →
        (q.kind = .prf → exec (.requestTimeout q.id) s = .next { s with reqs := ended, outbox := cancel })
        ∧ (q.kind = .rds → ∃ t, exec (.requestTimeout q.id) s = .next t ∧ t.outbox = cancel ∧ t.reqs = ended ∧ t.mem = s.mem
          ∧ t.l2 = s.l2 ∧ ∀ j, ∀ l ∈ (t.core j).loads, ¬ (l.line = q.line ∧ (l.nc = false ∨ isLocal s l.line = true))))
      ∧ (q.for_ = .send uid grid slot desc none →
        let gone : State := { s with reqs := s.reqs.filter fun y => y.id != q.id }
        exec (.uiSendAnswer q.id true) s = .next gone
        ∧ ((s.ctx slot).status = .loaded → exec (.uiSendAnswer q.id false) s = .next (gone.modCtx slot fun c =>
          { c with ui := { c.ui with den := true } }))))
    ∧ ((localPage s id = false ∨ (∃ y ∈ s.moves, y.page = id) ∨ 4 ≤ s.moves.length ∨ s.migctl.getLsbD 0 = false) →
      exec (.migrationStart (.own id)) s = .next s)
    ∧ ((∀ y ∈ s.moves, y.page = id → y.step ≠ 5 ∨ y.acks ≠ []) → exec (.migrationFinish (.own id)) s = .next s)
    ∧ (m.ep = s.self →
      let hit (e : TlbEnt) : Prop := match m.kind with
        | .all => True
        | .context => (s.ctx e.slot).num = m.ctx ∧ (s.ctx e.slot).status ≠ .unknown
        | .page va => (s.ctx e.slot).num = m.ctx ∧ (s.ctx e.slot).status ≠ .unknown ∧ e.va = va / e.size * e.size
      ∃ t, exec (.invalidation m) s = .next t ∧ t.mem = s.mem ∧ t.l2 = s.l2 ∧ t.threads = s.threads
        ∧ ∀ j e, (e ∈ (t.core j).tlb ↔ e ∈ (s.core j).tlb ∧ ¬ hit e) ∧ (e ∈ (t.core j).itlb ↔ e ∈ (s.core j).itlb ∧ ¬ hit e)
          ∧ (e ∈ (t.core j).ctlb ↔ e ∈ (s.core j).ctlb ∧ ¬ hit e) ∧ (e ∈ (t.core j).tlb2 ↔ e ∈ (s.core j).tlb2 ∧ ¬ hit e))

/-- 13 R316 to R318, 14 R328, 09 R238, 02 R56, 01 R15, R28, 06 R170, 12 R297, R298, R301, 08 R204, 04 R101, R104, R109, 05 R142:
what a core's events do. A handler group with a deliverable vector enters its handler: UIPC and UISAVM take its PC and mask, INH
is set, every live lane is active, and it goes on at UIVEC, with an acquire at PKG scope to complete first. A pin ends. A ready
group takes a free place of the active set. A matrix operation at the head of a queue completes: MZERO leaves zeros, and an MMA of
INT8 adds to each element of its accumulator the sum of 256 products, modulo 2^32; no other accumulator and no tile buffer
changes. A raw copy lands its next unit, the only one that starts in its line, in its own team's scratchpad, byte for byte, and
MARK follows; with its landings and stamp done its watermark is DONE at HI, and it is gone. The migration window halves every
count. A store buffer entry is sent when its time is over, and not while the replay buffer is full: that it is looked at again a
tick later then, and that a sent one comes to the L2 at the next tick, are figures of the model (log 2); its answer performs
its lane, raises LCT and frees it. A walk's end fills the second-level TLB. An access to another member's scratchpad is done
there, or faults behind an aborted watermark. A grid completes when every cluster has been placed and none is left, nor a copy of
it. -/
def Obligations.CoreEvents : Prop :=
  ∀ (s : State) (t : Thread) (m : Team) (c : Copy) (k T n L : Nat) (e : SbEntry) (w : Walk) (ent : TlbEnt) (g : Grid)
    (msg : ScratchMsg) (y : LogEntry), s.up → s.out = false →
    (∀ x ∈ s.teams, x.id = m.id → x = m) → (∀ x ∈ s.copies, x.id = c.id → x = c) →
    (t ∈ s.threads → (∀ x ∈ s.threads, x.uid = t.uid → x = t) → t.stream = false → t.mode = .user → t.wait = .none → t.log = [] →
      s.slotOf t < s.ctxs.length → t.sregs.length = 32 →
      let slot := s.slotOf t
      let u := (s.ctx slot).ui
      u.hg = some t.uid → u.inh = false → t.acq ≠ some true → u.pend &&& u.mask ≠ 0 → u.pend &&& u.mask &&& u.wide = 0 →
      t.uid ∉ (s.core t.core).seqwait →
      ∃ r v, exec (.uiHandlerEntry t.uid) s = .next r ∧ r.thread? t.uid = some v ∧ v.pc = u.vec ∧ v.mask = t.live ∧ v.wait = .none
        ∧ v.acq = some false
        ∧ { v with pc := t.pc, sregs := t.sregs, cc := t.cc, fetched := t.fetched, stall := t.stall, acq := t.acq } = t
        ∧ (r.ctx slot).ui = { u with pc := t.pc, inh := true
                                     savm := [t.mask.extractLsb' 0 32, t.mask.extractLsb' 32 32, t.mask.extractLsb' 64 32] }
        ∧ (∀ x, x ≠ t.uid → r.thread? x = s.thread? x) ∧ r.mem = s.mem ∧ ∀ j, j ≠ slot → r.ctx j = s.ctx j)
    ∧ (m ∈ s.teams → ∀ e, m.pinEnd = some e → exec (.pinExpiry m.id) s = .next (if e ≤ s.now then { s with
          teams := s.teams.map fun x => if x.id = m.id then { m with pinEnd := none, lastPinEnd := some s.now } else x } else s))
    ∧ (t ∈ s.threads → (∀ x ∈ s.threads, x.uid = t.uid → x = t) → t.active = false → t.stream = false → t.wait = .none →
      t.stall = false → t.idle = false → t.ending = false → t.readyAt + 48 ≤ s.now →
      (∀ x ∈ s.threads, x.core = t.core → x.stream = false → x.uid ≠ t.uid → x.active = true) →
      (s.threads.filter fun x => x.core = t.core && !x.stream && x.active).length < 8 →
      ∃ r, exec (.activeSetSwap t.core) s = .next r ∧ r.thread? t.uid = some { t with active := true, activeAt := s.now }
        ∧ ∀ x, x ≠ t.uid → r.thread? x = s.thread? x)
    ∧ (k < s.cores.length → Mem.wf (s.core k).engine.acc = true → ∀ o rest, (s.core k).engine.queue = o :: rest → o.d < 4 →
      let e := (s.core k).engine
      let code (tb row i : Nat) : Int := (BitVec.ofNat 8 (Mem.load e.tiles (tb * 0x4400 + row * 256 + i) 1)).toInt
      let pois (tb row i : Nat) : Bool := e.tileP.getLsbD ((tb * 0x4400 + row * 256 + i) / 4)
      let after (e' : Engine) : Prop := e'.queue = rest ∧ e'.tiles = e.tiles ∧ e'.tileP = e.tileP ∧
        ∀ d i, d < 4 → i < 4096 → d ≠ o.d → e'.accGet d i = e.accGet d i
      (rest ≠ [] → o.zero = true → ∃ r, exec (.matrixOpComplete k) s = .next r ∧ after (r.core k).engine
        ∧ ∀ i, i < 4096 → (r.core k).engine.accGet o.d i = (0, false))
      ∧ (rest ≠ [] → o.zero = false → o.pert = none → o.f = 0x4044 → ∃ r, exec (.matrixOpComplete k) s = .next r
        ∧ after (r.core k).engine ∧ ∀ i j, i < 64 → j < 64 →
          let old := e.accGet o.d (64 * i + j)
          (r.core k).engine.accGet o.d (64 * i + j) =
            if old.2 || (List.range 256).any (fun x => pois o.a i x || pois o.b j x) then (0, true)
            else (((Int.ofNat old.1 + ((List.range 256).map fun x => code o.a i x * code o.b j x).foldl (· + ·) 0).emod (2 ^ 32)).toNat,
              false)))
    ∧ (m ∈ s.teams → c ∈ s.copies → c.team = m.id → c.into = [(31, 0, false)] → m.exited = false → c.sent = [] → c.carry = [] →
      c.aborting = none →
      c.frozen = none → c.ctl.getLsbD 25 = false → c.ctl.getLsbD 28 = false → c.ctl.getLsbD 24 = false → c.dst.space = 1 →
      c.dst.swz = 0 → m.marks.length = 16 →
      let w := (c.ctl.extractLsb' 20 4).toNat
      let moved (x : Mem) (mark : Watermark) : Team := { m with scratch := x, marks := m.marks.set w mark }
      let old := m.marks.getD w Watermark.idle
      let a := c.dst.elem c.dstO c.next
      let b := c.dst.elem c.dstO (c.next + 1)
      (c.stage = .landing → copyBehind s c = false → c.src.space ≠ 2 → c.next < c.dst.count → 0 < c.dst.whole →
        a % 128 + c.dst.whole ≤ 128 →
        (c.next + 1 < c.dst.count → b / 128 ≠ a / 128) → Mem.wf m.scratch = true →
        ∀ v p ev, copyUnit s c c.next = (.ok v p ev, s) →
        ∃ r x, exec (.copyUnitLand c.id) s = .next r
          ∧ r.team? m.id = some (moved x { old with mark := if c.next + 1 < c.dst.count then b else c.hi })
          ∧ (∀ o, Mem.get x o = if a ≤ o ∧ o < a + c.dst.whole then BitVec.ofNat 8 (v / 256 ^ (o - a)) else Mem.get m.scratch o)
          ∧ r.copy? c.id = some { c with next := c.next + 1, carryEv := Ev.none } ∧ (∀ x, x ≠ m.id → r.team? x = s.team? x) ∧ r.mem = s.mem)
      ∧ (c.stage = .stamped → c.ctl.getLsbD 27 = false → teamRuns s m.id = true →
        ∃ r, exec (.copyStampPerformed c.id) s = .next r ∧ r.copy? c.id = none
          ∧ r.team? m.id = some (moved m.scratch { old with state := 3, mark := c.hi }) ∧ r.mem = s.mem))
    ∧ (∃ r, exec .migWindowBoundary s = .next r ∧ { r with pages := s.pages, agenda := s.agenda } = s ∧ ∀ p ∈ r.pages, ∃ q ∈ s.pages,
        p.1 = q.1 ∧ (∀ lo ∈ ([44, 24, 12] : List Nat), p.2.extractLsb' lo 12 = q.2.extractLsb' lo 12 >>> 1)
        ∧ (∀ x ∈ ([(0, 12), (36, 8), (56, 8)] : List (Nat × Nat)), p.2.extractLsb' x.1 x.2 = q.2.extractLsb' x.1 x.2))
    ∧ (k < s.cores.length → e ∈ (s.core k).sb → (∀ x ∈ (s.core k).sb, x.id = e.id → x = e) →
      (e.sent = false → (∀ x ∈ (s.core k).sb, x.line = e.line → x = e) →
        (replayFull s k = true → ∃ r, exec (.storeBufferTimeout k e.id) s = .next r ∧ { r with agenda := s.agenda } = s
          ∧ (s.now + 1, .storeBufferTimeout k e.id) ∈ r.agenda)
        ∧ (replayFull s k = false → ∃ r, exec (.storeBufferTimeout k e.id) s = .next r ∧ { r with
            cores := s.cores, l2w := s.l2w, agenda := s.agenda } = s
          ∧ r.core k = { s.core k with sb := (s.core k).sb.map fun x => if x.id = e.id then { x with sent := true } else x }
          ∧ r.l2w = s.l2w ++ [⟨e.id, e.line, e.slot, e.nc, e.cen, e.data, e.mask, e.psn, e.atom, s.now + 1, .sb k e.id, e.va, e.last,
            false, false⟩] ∧ (s.now + 1, .l2WritePerform e.id) ∈ r.agenda))
      ∧ (t ∈ s.threads → (∀ x ∈ s.threads, x.uid = t.uid → x = t) → e.atom = none → e.from_ = [⟨t.uid, n, laneBit L⟩] → L < 96 →
        s.copy? t.uid = none → ∃ r, exec (.storeBufferAnswer k e.id T) s = .next r ∧ r.mem = s.mem
          ∧ r.thread? t.uid = some { t with log := t.log.map fun x => if x.id = n then x.perform L else x, lct := max t.lct T }
          ∧ (∀ x, x ≠ t.uid → r.thread? x = s.thread? x)
          ∧ r.core k = { s.core k with sb := (s.core k).sb.filter fun x => x.id != e.id }))
    ∧ (w ∈ s.walks → (∀ x ∈ s.walks, x.id = w.id → x = w) → w.restart = false → w.dev = false → w.core < s.cores.length →
      walkNow s (dieOf w.core) w.slot (w.va * 65536) = (.ok ent, s) → ∃ r, exec (.pageWalkComplete w.id) s = .next r
        ∧ r.core w.core = (s.core w.core).install2 ent ∧ (∀ j, j ≠ w.core → r.core j = s.core j)
        ∧ r.walks = s.walks.filter (fun x => x.id != w.id) ∧ r.mem = s.mem)
    ∧ (g ∈ s.grids → (∀ x ∈ s.grids, x.id = g.id → x = g) → g.err = false →
      let past := g.stage = .running ∧ g.placed = g.clusters ∧ (∀ x ∈ s.clusters, x.grid ≠ g.id)
        ∧ (∀ x ∈ s.saved, x.cluster.grid ≠ g.id) ∧ ∀ x ∈ s.copies, x.grid ≠ g.id
      (¬ past → exec (.gridComplete g.id) s = .next s)
      ∧ (past → ∃ r, exec (.gridComplete g.id) s = .next r ∧ { r with grids := s.grids, agenda := s.agenda } = s
        ∧ r.grid? g.id = some { g with stage := .fence } ∧ ∃ x ∈ r.agenda, x.1 ≤ s.now ∧ x.2 = .gridCompletionActions g.id))
    ∧ (msg ∈ s.scratchMsgs → (∀ x ∈ s.scratchMsgs, x.id = msg.id → x = msg) → t ∈ s.threads →
      (∀ x ∈ s.threads, x.uid = t.uid → x = t) → msg.uid = t.uid → y ∈ t.log → (∀ x ∈ t.log, x.id = msg.entry → x = y) →
      y.id = msg.entry → m ∈ s.teams → msg.team = m.id → m.exited = false →
      let off := ((y.addrs.getD msg.lane 0).extractLsb' 0 19).toNat
      (∀ b, heldBy m.marks 1 0 off (memSize y.op) = .aborted b → ∃ r, exec (.memberScratchpadAccess msg.id) s = .next r
        ∧ r.thread? t.uid = some (t.modEntry y.id fun x => x.laneFault msg.lane ⟨COPY_ABORTED, 0, BitVec.ofNat 64 b⟩)
        ∧ r.scratchMsgs = s.scratchMsgs.filter (fun x => x.id != msg.id) ∧ r.teams = s.teams ∧ r.mem = s.mem)
      ∧ (heldBy m.marks 1 0 off (memSize y.op) = .free → y.op ≠ .spAtom .fadd → ∃ r, exec (.memberScratchpadAccess msg.id) s = .next r
        ∧ r.team? m.id = some { m with scratch := (scratchDo m.scratch off y msg.lane).1 }
        ∧ r.scratchMsgs = s.scratchMsgs.filter (fun x => x.id != msg.id) ∧ (∀ x, x ≠ m.id → r.team? x = s.team? x) ∧ r.mem = s.mem))

/-! ### Encodings (07 R172 to R187) -/

/-- 07 R172 to R184: for every instruction that a word encodes in a mode, with every operand at every value that its encoding
admits, its word decodes in that mode to it. -/
def Obligations.RoundTrip : Prop :=
  ∀ (m : Mode) (i : Instr), i.wf m = true → decode m (encode i) = .ok i

/-- 07 R183, R184: a word that decodes is the word of the instruction it decodes to, so that two words never share an
instruction and no bit of a word is ignored; that instruction is well formed in the mode, and none that the mode makes illegal
decodes there. -/
def Obligations.DecodeOnlyEncodings : Prop :=
  ∀ (m : Mode) (w : Word) (i : Instr), decode m w = .ok i → encode i = w ∧ i.wf m = true ∧ i.illegalIn m = none

/-- 07 R174 to R180 and the worked words of 09 to 15: words written out from the spec's encodings decode to the instructions
that they stand for, in the mode named. -/
def Obligations.DecodeWords : Prop :=
  ∀ row ∈ ([(.user, 0x013A3802, .wait 8 16 1 false), (.user, 0x01814000, .srd (.v 5) .laneid), (.user, 0x01B8C012, .swr .ccr 3),
      (.user, 0x46A00003, .slui 10 3), (.user, 0x4EA40000, .slhi 10 0x40000), (.user, 0xCB7D0200, .ballot 20 4),
      (.user, 0xCBC00100, .msetp 2), (.user, 0xA01FFFFF, .vmovi 1 0xFFFFF), (.user, 0xB8610286, .vhfma .bf 4 5 (.v 6)),
      (.user, 0xBC610286, .vhfma .hf 4 5 (.v 6)), (.user, 0xD000C082, .vperm 3 1 (.v 2)), (.user, 0x89B932E6, .satomCas 4 5 6),
      (.user, 0x88000000, .fenceCore), (.user, 0xE0204001, .mma 1 0 1), (.user, 0xF0003265, .uisend 4 5),
      (.sup, 0xF8390010, .srdp 4 .trapnpc), (.sup, 0xF8590003, .swrp (.ncw 3) 4), (.sup, 0xF8603200, .lsel 4),
      (.sup, 0xF8990280, .lrdv 4 5), (.sup, 0xF9003265, .tlbinv 4 5), (.sup, 0xF9803200, .halt 4)] : List (Mode × Word × Instr)),
    decode row.1 row.2.1 = .ok row.2.2

/-! ### Steps (07 R184, 14 R326, R327) -/

/-- 03 R90, 07 R184: the thread whose turn it is, with no trap to take, no handler to enter, no acquire to complete and nothing to
wait for, fetches the word at its PC and runs the instruction that it decodes to, and goes back to its place; a word that
decodes to none traps. An event that is due runs before any thread. A round in which no thread can go on ends, and the time
moves. And a word placed in the reset state is run by the next step. That a step is one event or one turn of one thread, and
that a pending group which something may have let go on is looked at before a turn is given, is the model's choice (log 2), and
so is how a word is placed (log 33). -/
def Obligations.StepRunsDecoded : Prop :=
  (∀ (s r v : State) (t : Thread) (k : Nat) (w : Word), (∀ e ∈ s.agenda, s.now < e.1) → (∀ x ∈ s.threads, x.ending = false) →
    nextPlace s = some k → (∀ x ∈ s.threads, x.unseen k = false) → pickTurn k s = (some t, r) →
    let u := pumpLog none (r.checkOut t)
    trapDue u.cur = false → handlerDue u u.cur = false → (u.cur.mode = .sup ∨ u.cur.acq = none) → fetch u = (.word w, v) →
    v.cur.wait = .none →
    let at_ : State := { v with iw := w }
    let back (q : State) : State := endTurn t (misses r t.uid t.core) r.now q
    (∀ i q, decode v.cur.decodeMode w = .ok i → exec i at_ = .next q → step s = .next (back q))
    ∧ (∀ x, decode v.cur.decodeMode w = .error x → step s = .next (back (conclude at_ (.trap at_ (rejectTrap v.cur.pc x))))))
  ∧ (∀ (s q : State) (d : Nat) (i : Instr) (rest : List (Nat × Instr)), s.agenda = (d, i) :: rest → d ≤ s.now →
    exec i { s with agenda := rest } = .next q → step s = .next (endStep s.now q.wake))
  ∧ (∀ s : State, (∀ e ∈ s.agenda, s.now < e.1) →
    (∀ x ∈ s.threads, x.ending = false ∧ x.stall = true ∧ waitPasses s.now x = false) → ∃ t, step s = .next t ∧ s.now < t.now ∧ ∀ x ∈ t.threads, x.stall = false)
  ∧ (∀ (w : Word) (i : Instr), decode (placedMode w) w = .ok i → ∃ (t : Thread) (n : Nat) (v q : State), v.iw = w ∧ v.cur.pc = 0x10000
    ∧ exec i v = .next q ∧ step (State.reset.withFetchWord 32 w.toNat) = .next (endTurn t n 0 q))

/-- Every step goes on: from every state, whatever it holds, the machine has a next state; it never faults and never refuses.
No step moves the clock back. Between steps every thread is in its place: where none was checked out, none is; and what holds of
every state then is kept: memory, scratchpads and engines in canonical form, line metadata and page records in the order of
their keys, one thread, one team and one cluster of each number, here and in save slots, and registers in the numbers that the
spec gives (02 R63, R64, 04 R98, R103, 08 R210, 12 R294, 13 R308). -/
def Obligations.StepGoesOn : Prop :=
  ∀ s : State, ∃ t, step s = .next t ∧ s.now ≤ t.now ∧ (s.settled → t.settled ∧ (s.Inv → t.Inv))

/-- 17 R370, 05 R124, R142, 16 R361, 17 R367, R368: the machine right after reset, before its boot: no thread, team, grid or copy;
the registers at the values that the spec gives; memory in canonical form; no thread checked out. RESET with an image that the
boot ROM refuses leaves recovery, with memory as it was; with one it accepts, a package that has booted with measurement 0
extended by the image. In both, whatever ran before is gone. Which registers have no value of the spec is log 6. How an image is
hashed and checked is the model's choice (log 37), and the fused key hash a free value (log 3). The spec gives EVSTAT no reset
value: its zero is the model's choice (log 6). What every step keeps holds at reset. -/
def Obligations.ResetState : Prop :=
  let z := State.reset
  (z.settled ∧ z.Inv ∧ z.booted = false ∧ z.recovery = false ∧ z.threads = [] ∧ z.teams = [] ∧ z.grids = [] ∧ z.copies = [] ∧ z.l2 = []
    ∧ z.home = [] ∧ z.reqs = [] ∧ z.agenda = [] ∧ Mem.wf z.mem = true ∧ z.spancfg = 0 ∧ z.pgcmd = 0 ∧ z.ctxcmd = 0 ∧ z.evstat = 0
    ∧ z.evdest = 0x400 ∧ z.migctl = 0x1401000000 ∧ z.pwrctl = 0xC8000600000 ∧ (∀ x ∈ z.ages, x = 0x00FF0000FFFFFFFF)
    ∧ (∀ x ∈ z.ppmask, x = 0xFFFFFFFFFFFFFFFF) ∧ (∀ x ∈ z.meas, x = 0) ∧ (∀ x ∈ z.cstate, x = 0)
    ∧ (∀ x ∈ z.ctxs, x.status = .unknown) ∧ z.isolated = false)
  ∧ ∀ (s : State) (im : BootImage), ∃ r, exec (.reset im) s = .next r ∧ r.threads = [] ∧ r.teams = [] ∧ r.grids = [] ∧ r.copies = []
    ∧ r.l2 = [] ∧ r.home = [] ∧ r.reqs = [] ∧ r.pwrctl = z.pwrctl ∧ r.migctl = z.migctl ∧ r.ctxs = z.ctxs ∧ r.now = s.now
    ∧ (bootAccepts im = false → r.recovery = true ∧ r.booted = false ∧ r.mem = s.mem)
    ∧ (bootAccepts im = true → r.recovery = false ∧ r.booted = true
      ∧ r.meas = z.meas.set 0 (let d := flip256 (sha256 im.body)
          flip256 (sha256 (beBytes 32 (flip256 0).toNat ++ beBytes 32 (flip256 d).toNat)))
      ∧ (s.now, .heartbeatSend) ∈ r.agenda ∧ (s.now + 100000, .powerAdjust) ∈ r.agenda)
end

