-- ==== Sys2Proof/Laws/Codec.lean ====
section
/-! SUPPORT. The fields of an encoded word, one by one: what each operand is encoded as is read back as it was. -/
namespace Sys2Proof

theorem fieldOf_ofNat (n lo len : Nat) (h : n < 2^32) : fieldOf (BitVec.ofNat 32 n) lo len = n / 2^lo % 2^len := by
  simp only [fieldOf, BitVec.toNat_ofNat]; rw [Nat.mod_eq_of_lt h]
theorem fields_packR (M f d a b : Nat) (hM : M < 32) (hf : f < 64) (hd : d < 128) (ha : a < 128) (hb : b < 128) :
    fieldOf (packR M f d a b) 27 5 = M ∧ fieldOf (packR M f d a b) 21 6 = f ∧ fieldOf (packR M f d a b) 14 7 = d
    ∧ fieldOf (packR M f d a b) 7 7 = a ∧ fieldOf (packR M f d a b) 0 7 = b := by
  unfold packR
  refine ⟨?_, ?_, ?_, ?_, ?_⟩ <;> (rw [fieldOf_ofNat _ _ _ (by omega)]; omega)
theorem encS_lt (r : SReg) : encS r < 128 := by unfold encS; omega
theorem encS_ge (r : SReg) : 96 ≤ encS r := by unfold encS; omega
@[simp] theorem clsS_encS (r : SReg) : clsS (encS r) = some r := by
  unfold clsS encS; rw [dif_pos (by omega)]; simp
@[simp] theorem clsV_user (r : VReg) : clsV .user r.val = some r := by
  unfold clsV; rw [dif_pos r.isLt]; rfl
@[simp] theorem clsV_sup (r : VReg) : clsV .sup r.val = some r := by
  unfold clsV; rw [dif_pos r.isLt]; rfl
@[simp] theorem clsP_user (r : PReg) : clsP .user r.val = some r := by
  unfold clsP; rw [dif_pos r.isLt]; rfl
@[simp] theorem clsP_sup (r : PReg) : clsP .sup r.val = some r := by
  unfold clsP; rw [dif_pos r.isLt]; rfl
@[simp] theorem clsX_user (x : XOpnd) : clsX .user (encX x) = some x := by
  cases x with
  | v r => have := r.isLt; simp [clsX, encX, this]
  | s r => have := encS_ge r; simp [clsX, encX]; omega
@[simp] theorem clsX_sup (x : XOpnd) : clsX .sup (encX x) = some x := by
  cases x with
  | v r => have := r.isLt; simp [clsX, encX, this]
  | s r => have := encS_ge r; simp [clsX, encX]; omega
@[simp] theorem clsX_seq (r : SReg) : clsX .seq (encS r) = some (.s r) := by
  have := encS_ge r; simp [clsX]; omega
@[simp] theorem clsN_val (n : Nat) (x : Fin n) : clsN n x.val = some x := by simp [clsN]
theorem encX_lt (x : XOpnd) : encX x < 128 := by cases x <;> simp [encX] <;> first | omega | exact encS_lt _
theorem encA_lt (x : VAddr) : encA x < 128 := by cases x <;> simp [encA] <;> first | omega | exact encS_lt _
theorem encB_lt (x : VAddr) : encB x < 128 := by cases x <;> simp [encB] <;> exact encX_lt _
theorem encFn_lt (h : Hint) (x : VAddr) (n : Nat) (hn : n < 8) : encFn h x n < 64 := by
  cases h <;> cases x <;> simp [encFn, Hint.code] <;> omega
theorem encFn_sz (h : Hint) (x : VAddr) (n : Nat) (hn : n < 8) : encFn h x n % 8 = n := by
  cases h <;> cases x <;> simp [encFn, Hint.code] <;> omega
theorem encFn_h (h : Hint) (x : VAddr) (n : Nat) (hn : n < 8) : encFn h x n / 8 % 4 = h.code := by
  cases h <;> cases x <;> simp [encFn, Hint.code] <;> omega
theorem encFn_p (h : Hint) (x : VAddr) (n : Nat) (hn : n < 8) : encFn h x n / 32 = (match x with | .base _ _ => 0 | .pair _ => 1) := by
  cases h <;> cases x <;> simp [encFn, Hint.code] <;> omega
@[simp] theorem clsOptS_enc (b : Option SReg) : clsOptS (match b with | none => 0 | some b => encS b) = some b := by
  cases b with
  | none => simp [clsOptS]
  | some b => have := encS_ge b; simp [clsOptS]; omega
theorem optS_lt (b : Option SReg) : (match b with | none => 0 | some b => encS b) < 128 := by
  cases b <;> simp; exact encS_lt _
theorem finish_ok (m : Mode) (i : Instr) (h : i.wf m = true) : finish m true (some i) = .ok i := by
  simp only [Instr.wf, Bool.and_eq_true] at h
  simp only [finish]
  obtain ⟨⟨⟨⟨⟨h1, h0⟩, h2⟩, h3⟩, h4⟩, h5⟩ := h
  simp [h2, h3]
  split <;> simp_all
theorem idxS (r : SpecialReg) : SpecialReg.ofIndex (r.index / 128 * 128 + r.index % 128) = some r ∧ r.index < 16384 := by
  cases r with
  | uicnt n => exact ⟨by revert n; decide, by simp [SpecialReg.index]; omega⟩
  | uidata n => exact ⟨by revert n; decide, by simp [SpecialReg.index]; omega⟩
  | uirule n => exact ⟨by revert n; decide, by simp [SpecialReg.index]; omega⟩
  | live k => match k with | 0 | 1 | 2 => exact ⟨rfl, by decide⟩
  | trapmask k => match k with | 0 | 1 | 2 => exact ⟨rfl, by decide⟩
  | uisavm k => match k with | 0 | 1 | 2 => exact ⟨rfl, by decide⟩
  | _ => exact ⟨rfl, by decide⟩
theorem idxP (r : PrivReg) : PrivReg.ofIndex (r.index / 128 * 128 + r.index % 128) = some r ∧ r.index < 16384 := by
  cases r with
  | ncw n => exact ⟨by revert n; decide, by simp [PrivReg.index]; omega⟩
  | fltpend k => match k with | 0 | 1 | 2 => exact ⟨rfl, by decide⟩
  | _ => exact ⟨rfl, by decide⟩
theorem writ_of_wf_s (m r d) (h : Instr.wf m (.swr r d) = true) : r.writable = true := by
  simp only [Instr.wf, Bool.and_eq_true, Instr.nameable] at h; exact h.1.1.1.1.2
theorem writ_of_wf_p (m r d) (h : Instr.wf m (.swrp r d) = true) : r.writable = true := by
  simp only [Instr.wf, Bool.and_eq_true, Instr.nameable] at h; exact h.1.1.1.1.2
theorem wf_modes {m i} (h : Instr.wf m i = true) : modeReject i.modes m = none := by
  simp only [Instr.wf, Bool.and_eq_true, Instr.illegalIn] at h
  have h4 := h.1.2
  revert h4; cases modeReject i.modes m <;> simp
theorem wf_uses {i} (h : Instr.wf .seq i = true) : i.uses.all Use.inStream = true := by
  simp only [Instr.wf, Bool.and_eq_true] at h
  simpa using h.2
@[simp] theorem clsAddr_user_b (a b) : clsAddr .user false (encA (.base a b)) (encB (.base a b)) = some (.base a b) := by
  simp [clsAddr, encA, encB]
@[simp] theorem clsAddr_user_p (a) : clsAddr .user true (encA (.pair a)) (encB (.pair a)) = some (.pair a) := by
  simp [clsAddr, encA]
theorem encX_uses_seq (d : XOpnd) (i) (h : Instr.wf .seq (.srd d i) = true) : ∃ r, d = .s r := by
  have := wf_uses h
  cases d with
  | s r => exact ⟨r, rfl⟩
  | v r => exact (Bool.false_ne_true this).elim

end Sys2Proof
end

