-- ==== Sys2Proof/Laws/Issue.lean ====
section
/-! SUPPORT. What issuing a word comes to: the meaning runs when the word is ready, and each way in which a meaning ends. -/
namespace Sys2Proof.Machine

/-- A ready word runs its meaning, and the end of the meaning decides the rest. -/
theorem issue_of_ready {i : Instr} {s : State} (h : ready i s) (k : State → Res) :
    issue i.modes i.uses s k = .next (conclude s (k s)) := by
  obtain ⟨h1, h2, h3⟩ := h
  simp [issue, h1, h2, h3]

/-- A word that its thread's mode does not allow is rejected before all else (07 R184 steps 7 and 8). -/
theorem issue_of_reject {i : Instr} {s : State} {r : Reject} (h : modeReject i.modes s.cur.decodeMode = some r)
    (k : State → Res) : issue i.modes i.uses s k = .next (raise s (rejectTrap s.cur.pc r) s.cur.pc s.iw) := by
  simp [issue, h, conclude]

theorem conclude_ok (s r : State) : conclude s (.ok r) = retire s r := rfl
theorem conclude_jump (s r : State) (a : Dword) : conclude s (.jump r a) = branch s r a := rfl
theorem conclude_stall (s : State) : conclude s (.stall s) = hold s := rfl
theorem conclude_wait (s r : State) (w : Wait) : conclude s (.wait r w) = block r w := rfl

/-- A trap with no older lane unperformed is taken at once (15 R338). -/
theorem raise_now {s : State} (h : noneOlder s) (t : Trap) (pc : Dword) (w : Word) : raise s t pc w = takeTrap s t pc w none :=
  if_neg (by rw [show _ = false from h]; exact Bool.false_ne_true)
theorem conclude_trap {s : State} (h : noneOlder s) (t : Trap) : conclude s (.trap s t) = takeTrap s t s.cur.pc s.iw none :=
  raise_now h t _ _

/-- Register d is a word of the mask exactly when a run of one scalar from d reaches s29 (06 R155). -/
theorem masks_eq (t : Thread) (d : SReg) (n : Nat) (h : n = 1) :
    (t.mode == .user && !t.stream && decide (29 < d.val + n)) = masks t d := by
  subst h
  have : decide (29 < d.val + 1) = decide (29 ≤ d.val) := decide_eq_decide.mpr (by omega)
  rw [this, masks]

/-- A run that holds one scalar. -/
theorem putRun_one (t : Thread) (d : SReg) (x : SVal) (h : masks t d = true → x.p = false) :
    t.putRun d.val [x.norm] = some (writeS t d x) := by
  simp only [Thread.putRun, writeS, masks_eq t d _ (List.length_singleton)]
  cases hm : masks t d
  · rfl
  · have hd : 29 ≤ d.val := by simp [masks] at hm; exact hm.2
    simp [mapFrom, SVal.norm, h hm]

/-- A scalar result (09 R214). -/
theorem conclude_putScalars {s : State} {d : SReg} {x : SVal} (h : masks s.cur d = true → x.p = false) :
    conclude s (putScalars s d.val [x]) = retire s { s with cur := writeS s.cur d x } := by
  have := putRun_one s.cur d x h
  simp only [putScalars, List.map_cons, List.map_nil, this, conclude_ok]

/-- Poison would enter the mask: nothing is written (06 R155, 10 R261). -/
theorem putScalars_poison {s : State} {d : SReg} {x : SVal} (hm : masks s.cur d = true) (hx : x.p = true) :
    putScalars s d.val [x] = .trap s poisonTrap := by
  have hd : 29 ≤ d.val := by simp [masks] at hm; exact hm.2
  have : s.cur.putRun d.val [x.norm] = none := by
    simp only [Thread.putRun, masks_eq s.cur d _ (List.length_singleton), hm]
    simp [mapFrom, SVal.norm, hx, hd]
  simp only [putScalars, List.map_cons, List.map_nil, this]

/-- A result over lanes (06 R154, 08 R194). -/
theorem conclude_vecWrite (s : State) (d : VReg) (f : Thread → Nat → Lane) :
    conclude s (vecWrite s d f) = retire s { s with cur := s.cur.putV d (f s.cur) } := rfl
/-- A result over lanes in register pairs (06 R154, 08 R195). -/
theorem conclude_pairWrite (s : State) (d : VReg) (f : Thread → Nat → SVal) :
    conclude s (pairWrite s d f) = retire s { s with cur := s.cur.putV2 d (f s.cur) } := rfl
/-- FP32 results over lanes, and the events that they count (08 R204). -/
theorem conclude_fpWrite (s : State) (d : VReg) (cls : Nat) (f : Thread → Nat → Nat × Bool × Ev) :
    conclude s (fpWrite s d cls f) = retire s (countEvents
      { s with cur := s.cur.putV d fun L => ⟨BitVec.ofNat 32 (f s.cur L).1, (f s.cur L).2.1⟩ } cls (laneEvents s.cur (f s.cur))) := by
  unfold fpWrite; exact conclude_ok _ _
/-- FP64 results over lanes, and the events that they count (08 R204). -/
theorem conclude_fpWrite2 (s : State) (d : VReg) (cls : Nat) (f : Thread → Nat → Nat × Bool × Ev) :
    conclude s (fpWrite2 s d cls f) = retire s (countEvents
      { s with cur := s.cur.putV2 d fun L => ⟨BitVec.ofNat 64 (f s.cur L).1, (f s.cur L).2.1⟩ } cls (laneEvents s.cur (f s.cur))) := by
  unfold fpWrite2; exact conclude_ok _ _

/-- A group that waits in no queue leaves none (06 R159, 09 R237). -/
theorem leaveQueues_none {s : State} {slot core uid : Nat} (hl : (s.ctx slot).launches.contains uid = false)
    (hs : (s.core core).seqwait.contains uid = false) : leaveQueues s slot core uid = s := by
  simp only [leaveQueues, hl, hs, Bool.false_eq_true, if_false]
/-- Leaving the queues changes neither the thread that is checked out, nor the threads' registers: at most the queues, what is
due, and the marks of the model that say who may try again. -/
theorem leaveQueues_cur (s : State) (slot core uid : Nat) (h : s.cur.stall = false) :
    (leaveQueues s slot core uid).cur = s.cur := by
  have e : { s.cur with stall := false } = s.cur := by rw [← h]
  simp only [leaveQueues, State.modCtx, State.modCore, State.wake, State.post]
  split <;> split <;> (try split) <;> first | rfl | exact e
/-- A trap of a group in user mode whose context has a trap handler: the trap registers are written and the handler entered,
and nothing else of the package changes but the queues that it waited in (15 R339, R341). -/
theorem takeTrap_user {s : State} (h : s.cur.stream = false) (hm : s.cur.mode = .user) (hv : (s.ctxOf s.cur).trapvec ≠ 0)
    (t : Trap) (pc : Dword) (w : Word) :
    takeTrap s t pc w none = (leaveQueues s (s.slotOf s.cur) s.cur.core s.cur.uid).modCur fun u =>
      enterTrap u t pc w none (s.ctxOf s.cur).trapvec := by
  have hv : ((s.ctxOf s.cur).trapvec != 0) = true := by simpa using hv
  simp only [takeTrap, h, hm, hv]; rfl
/-- Without a trap handler the trap is a context error, its code, PC and address written (15 R339, 20 R399). -/
theorem takeTrap_none {s : State} (h : s.cur.stream = false) (hm : s.cur.mode = .user) (hv : (s.ctxOf s.cur).trapvec = 0)
    (t : Trap) (pc : Dword) (w : Word) :
    takeTrap s t pc w none =
      contextError ((leaveQueues s (s.slotOf s.cur) s.cur.core s.cur.uid).modCur fun u => { u with
        trapcode := BitVec.ofNat 64 (t.code + t.detail * 256), trappc := pc, trapaddr := t.addr }) t.code t.detail t.detail t.addr := by
  simp [takeTrap, h, hm, hv]
/-- A trap in supervisor mode is a context error (15 R342). -/
theorem takeTrap_sup {s : State} (h : s.cur.stream = false) (hm : s.cur.mode = .sup) (t : Trap) (pc : Dword) (w : Word)
    (e : Option LogEntry) : takeTrap s t pc w e =
      contextError (leaveQueues s (s.slotOf s.cur) s.cur.core s.cur.uid) 0x16 t.code (t.code + t.detail * 256) t.addr := by
  simp [takeTrap, h, hm]
/-- A trap of a stream ends its grid (06 R158, 15 R339). -/
theorem takeTrap_stream {s : State} (h : s.cur.stream = true) (t : Trap) (pc : Dword) (w : Word) (e : Option LogEntry) :
    takeTrap s t pc w e = (contextError (leaveQueues s (s.slotOf s.cur) s.cur.core s.cur.uid) t.code t.detail t.detail
      t.addr).modCur fun u => { u with ending := true } := by
  simp [takeTrap, h]

end Sys2Proof.Machine
end

