-- ==== Sys2Proof/Laws/Exec.lean ====
section
/-! SUPPORT. Every instruction and every event has a next state, and what an event does when the package is up. -/
namespace Sys2Proof.Machine

theorem issue_next (m : Bool × Bool × Bool) (us : List Use) (s : State) (k : State → Res) : ∃ t, issue m us s k = .next t := by
  unfold issue
  split
  · exact ⟨_, rfl⟩
  · split
    · exact ⟨_, rfl⟩
    · split <;> exact ⟨_, rfl⟩
theorem event_next (s : State) (f : State → State) : ∃ t, event s f = .next t := ⟨_, rfl⟩
theorem lineRequest_next (kind : HomeKind) (r : HomeReq) (s : State) : ∃ t, lineRequest kind r s = .next t := by
  unfold lineRequest; split
  · exact ⟨_, rfl⟩
  · exact event_next _ _
theorem regAccess_next (s : State) (f : State → State) : ∃ t, regAccess s f = .next t := ⟨_, rfl⟩

/-- Events have their effect once the package has booted (17 R370). -/
theorem event_up {s : State} (h : s.up) (f : State → State) : event s f = .next (f s) := by
  simp [event, h.1, h.2]
/-- So have requests of lines. -/
theorem lineRequest_up {s : State} (h : s.up) (kind : HomeKind) (r : HomeReq) : lineRequest kind r s = .next (requestArrive s kind r) := by
  simp [lineRequest, event, h.1, h.2]
/-- The control registers answer from the boot or the recovery on (17 R370). -/
theorem regAccess_up {s : State} (h : s.up) (f : State → State) : regAccess s f = .next (f s) := by
  simp [regAccess, h.1]
/-- Before the boot nothing but a reset has an effect (17 R370). -/
theorem event_down {s : State} (h : s.booted = false) (f : State → State) : event s f = .next s := by
  simp [event, h]

/-- No meaning faults and none refuses. -/
theorem exec_next (i : Instr) (s : State) : ∃ t, exec i s = .next t := by
  cases i
  all_goals unfold exec
  all_goals first
    | exact issue_next _ _ _ _
    | exact event_next _ _
    | exact regAccess_next _ _
    | exact lineRequest_next _ _ _
    | exact ⟨_, rfl⟩

end Sys2Proof.Machine
end

