-- ==== Sys2Proof/Laws/Mem.lean ====
section
/-! SUPPORT. Byte memories: reading after writing, and that every operation keeps the canonical form. -/
set_option Elab.async false
namespace Sys2Proof.Machine

theorem Mem.wfFrom_cons {b k : Nat} {v : Byte} {r : Mem} :
    Mem.wfFrom b ((k, v) :: r) = true ↔ b ≤ k ∧ v ≠ 0 ∧ Mem.wfFrom (k + 1) r = true := by
  simp [Mem.wfFrom, Mem.unlisted, and_assoc]
theorem Mem.wfFrom_le {b c : Nat} {m : Mem} (h : Mem.wfFrom c m = true) (hb : b ≤ c) : Mem.wfFrom b m = true := by
  cases m with
  | nil => rfl
  | cons x r => obtain ⟨k, v⟩ := x; rw [Mem.wfFrom_cons] at h ⊢; exact ⟨by omega, h.2⟩
theorem Mem.wf_of_wfFrom {b : Nat} {m : Mem} (h : Mem.wfFrom b m = true) : m.wf = true := Mem.wfFrom_le h (Nat.zero_le b)
/-- A memory reads zero below its first address. -/
theorem Mem.get_below {b : Nat} {m : Mem} (h : Mem.wfFrom b m = true) {a : Nat} (ha : a < b) : m.get a = 0 := by
  cases m with
  | nil => rfl
  | cons x r =>
    obtain ⟨k, v⟩ := x
    rw [Mem.wfFrom_cons] at h
    have h1 : ¬ k = a := by omega
    have h2 : a < k := by omega
    simp [Mem.get, h1, h2, Mem.unlisted]

theorem Mem.get_cons (k : Nat) (v : Byte) (r : Mem) (c : Nat) :
    Mem.get ((k, v) :: r) c = if k = c then v else if c < k then 0 else Mem.get r c := by
  simp [Mem.get, Mem.unlisted]
theorem Mem.set_cons_lt {k a : Nat} (v : Byte) (r : Mem) (x : Byte) (h : a < k) :
    Mem.set ((k, v) :: r) a x = if x = 0 then (k, v) :: r else (a, x) :: (k, v) :: r := by
  simp [Mem.set, Mem.unlisted, h]
theorem Mem.set_cons_eq (k : Nat) (v : Byte) (r : Mem) (x : Byte) :
    Mem.set ((k, v) :: r) k x = if x = 0 then r else (k, x) :: r := by
  simp [Mem.set, Mem.unlisted]
theorem Mem.set_cons_gt {k a : Nat} (v : Byte) (r : Mem) (x : Byte) (h : k < a) :
    Mem.set ((k, v) :: r) a x = (k, v) :: Mem.set r a x := by
  have h1 : ¬ a < k := by omega
  have h2 : ¬ k = a := by omega
  simp [Mem.set, h1, h2]

/-- A byte written reads what was written, and every other byte what it read. -/
theorem Mem.get_set {b : Nat} {m : Mem} (h : Mem.wfFrom b m = true) (a : Nat) (x : Byte) (c : Nat) :
    (m.set a x).get c = if c = a then x else m.get c := by
  induction m generalizing b with
  | nil =>
    have h0 : Mem.set [] a x = if x = 0 then [] else [(a, x)] := by simp [Mem.set, Mem.unlisted]
    rw [h0]
    by_cases hx : x = 0
    · rw [if_pos hx]; subst hx; split <;> rfl
    · rw [if_neg hx, Mem.get_cons]
      by_cases hc : c = a
      · rw [if_pos hc.symm, if_pos hc]
      · rw [if_neg (Ne.symm hc), if_neg hc]; split <;> rfl
  | cons y r ih =>
    obtain ⟨k, v⟩ := y
    rw [Mem.wfFrom_cons] at h
    obtain ⟨hb, hv, hr⟩ := h
    rcases Nat.lt_trichotomy a k with hak | hak | hak
    · rw [Mem.set_cons_lt v r x hak]
      by_cases hx : x = 0
      · rw [if_pos hx]
        by_cases hc : c = a
        · have h1 : ¬ k = c := by omega
          have h2 : c < k := by omega
          rw [if_pos hc, Mem.get_cons, if_neg h1, if_pos h2, hx]
        · rw [if_neg hc]
      · rw [if_neg hx, Mem.get_cons]
        by_cases hc : c = a
        · rw [if_pos hc.symm, if_pos hc]
        · rw [if_neg (Ne.symm hc), if_neg hc]
          split
          · rename_i hlt
            have h1 : ¬ k = c := by omega
            have h2 : c < k := by omega
            rw [Mem.get_cons, if_neg h1, if_pos h2]
          · rfl
    · subst hak
      rw [Mem.set_cons_eq]
      by_cases hx : x = 0
      · rw [if_pos hx]
        by_cases hc : c = a
        · rw [if_pos hc, hc, hx]; exact Mem.get_below hr (Nat.lt_succ_self a)
        · rw [if_neg hc, Mem.get_cons, if_neg (Ne.symm hc)]
          split
          · exact Mem.get_below hr (by omega)
          · rfl
      · rw [if_neg hx, Mem.get_cons, Mem.get_cons]
        by_cases hc : c = a
        · rw [if_pos hc.symm, if_pos hc]
        · rw [if_neg (Ne.symm hc), if_neg hc, if_neg (Ne.symm hc)]
    · rw [Mem.set_cons_gt v r x hak, Mem.get_cons, Mem.get_cons, ih hr]
      by_cases hkc : k = c
      · have : ¬ c = a := by omega
        rw [if_pos hkc, if_pos hkc, if_neg this]
      · rw [if_neg hkc, if_neg hkc]
        by_cases hlt : c < k
        · have : ¬ c = a := by omega
          rw [if_pos hlt, if_pos hlt, if_neg this]
        · rw [if_neg hlt, if_neg hlt]

theorem Mem.set_wfFrom {b : Nat} {m : Mem} (h : Mem.wfFrom b m = true) {a : Nat} (ha : b ≤ a) (x : Byte) :
    Mem.wfFrom b (m.set a x) = true := by
  induction m generalizing b with
  | nil =>
    have h0 : Mem.set [] a x = if x = 0 then [] else [(a, x)] := by simp [Mem.set, Mem.unlisted]
    rw [h0]
    split
    · rfl
    · rename_i hx; rw [Mem.wfFrom_cons]; exact ⟨ha, hx, rfl⟩
  | cons y r ih =>
    obtain ⟨k, v⟩ := y
    have h' := h
    rw [Mem.wfFrom_cons] at h
    obtain ⟨hb, hv, hr⟩ := h
    rcases Nat.lt_trichotomy a k with hak | hak | hak
    · rw [Mem.set_cons_lt v r x hak]
      split
      · exact h'
      · rename_i hx; rw [Mem.wfFrom_cons, Mem.wfFrom_cons]; exact ⟨ha, hx, by omega, hv, hr⟩
    · subst hak
      rw [Mem.set_cons_eq]
      split
      · exact Mem.wfFrom_le hr (by omega)
      · rename_i hx; rw [Mem.wfFrom_cons]; exact ⟨ha, hx, hr⟩
    · rw [Mem.set_cons_gt v r x hak, Mem.wfFrom_cons]; exact ⟨hb, hv, ih hr (by omega)⟩
/-- Writing a byte keeps the canonical form. -/
theorem Mem.set_wf {m : Mem} (h : m.wf = true) (a : Nat) (x : Byte) : (m.set a x).wf = true :=
  Mem.set_wfFrom h (Nat.zero_le a) x

/-- Writing bytes keeps the canonical form. -/
theorem Mem.store_wf {m : Mem} (h : m.wf = true) (a n x : Nat) : (m.store a n x).wf = true := by
  induction n generalizing m a x with
  | zero => exact h
  | succ n ih => exact ih (Mem.set_wf h a _) _ _
/-- What the bytes are after n bytes have been written. -/
theorem Mem.get_store {m : Mem} (h : m.wf = true) (a n x c : Nat) :
    (m.store a n x).get c = if a ≤ c ∧ c < a + n then BitVec.ofNat 8 (x / 256 ^ (c - a)) else m.get c := by
  induction n generalizing m a x with
  | zero => rw [if_neg (by omega)]; rfl
  | succ n ih =>
    rw [Mem.store, ih (Mem.set_wf h a _), Mem.get_set h]
    by_cases hc : c = a
    · subst hc
      have h1 : ¬ (c + 1 ≤ c ∧ c < c + 1 + n) := by omega
      have h2 : c ≤ c ∧ c < c + (n + 1) := by omega
      simp [h1, h2]
    · by_cases hin : a + 1 ≤ c ∧ c < a + 1 + n
      · have h2 : a ≤ c ∧ c < a + (n + 1) := by omega
        have h3 : c - a = (c - (a + 1)) + 1 := by omega
        rw [if_pos hin, if_pos h2, h3, Nat.pow_succ, Nat.div_div_eq_div_mul, Nat.mul_comm]
      · have h2 : ¬ (a ≤ c ∧ c < a + (n + 1)) := by omega
        rw [if_neg hin, if_neg h2, if_neg hc]
/-- Writing the bytes of a mask keeps the canonical form. -/
theorem Mem.storeMask_wf {m : Mem} (h : m.wf = true) (a n x k : Nat) : (m.storeMask a n x k).wf = true := by
  induction n generalizing m a x k with
  | zero => exact h
  | succ n ih =>
    rw [Mem.storeMask]
    split
    · exact ih (Mem.set_wf h a _) _ _ _
    · exact ih h _ _ _

theorem Mem.load_below {b : Nat} {m : Mem} (h : Mem.wfFrom b m = true) {a n : Nat} (ha : a + n ≤ b) : m.load a n = 0 := by
  cases m with
  | nil => rfl
  | cons x r =>
    obtain ⟨k, v⟩ := x
    rw [Mem.wfFrom_cons] at h
    have h1 : ¬ k < a := by omega
    have h2 : ¬ k < a + n := by omega
    simp [Mem.load, h1, h2]
/-- Reading no byte gives zero. -/
theorem Mem.load_zero (m : Mem) (a : Nat) : m.load a 0 = 0 := by
  induction m with
  | nil => rfl
  | cons x r ih =>
    obtain ⟨k, v⟩ := x
    by_cases h : k < a <;> simp [Mem.load, h, ih]
/-- Reading n + 1 bytes: the first is the lowest (00 R4). -/
theorem Mem.load_succ {b : Nat} {m : Mem} (h : Mem.wfFrom b m = true) (a n : Nat) :
    m.load a (n + 1) = (m.get a).toNat + 256 * m.load (a + 1) n := by
  induction m generalizing b with
  | nil => simp [Mem.load, Mem.get, Mem.unlisted]
  | cons x r ih =>
    obtain ⟨k, v⟩ := x
    rw [Mem.wfFrom_cons] at h
    obtain ⟨hb, hv, hr⟩ := h
    simp only [Mem.load, Mem.get]
    by_cases h1 : k < a
    · have h2 : ¬ k = a := by omega
      have h3 : ¬ a < k := by omega
      have h4 : k < a + 1 := by omega
      simp [h1, h2, h3, h4, ih hr]
    · by_cases h2 : k = a
      · subst h2
        rcases Nat.eq_zero_or_pos n with hn | hn
        · subst hn; rw [Mem.load_zero]; simp [Mem.load_below hr (a := k) (n := 0 + 1) (by omega)]
        · have := ih hr
          rw [Mem.get_below hr (by omega : k < k + 1)] at this
          simp only [Nat.lt_irrefl, if_false, beq_self_eq_true, if_true, Nat.sub_self, Nat.pow_zero, Nat.mul_one]
          rw [if_pos (by omega), if_pos (by omega), this]
          simp
      · have h3 : a < k := by omega
        have h4 : ¬ k < a + 1 := by omega
        by_cases h5 : k < a + (n + 1)
        · have h6 : k < a + 1 + n := by omega
          have h7 : k - a = (k - (a + 1)) + 1 := by omega
          have := ih hr
          rw [Mem.get_below hr (by omega : a < k + 1)] at this
          simp only [h1, h2, h3, h4, h5, h6, if_true, if_false, beq_iff_eq, Mem.unlisted]
          have h8 (x y z : Nat) : x * (y * 256) + (0 + 256 * z) = 0 + 256 * (x * y + z) := by
            rw [Nat.mul_add, ← Nat.mul_assoc, Nat.mul_comm (x * y) 256]; omega
          rw [this, h7, Nat.pow_succ]
          exact h8 _ _ _
        · have h6 : ¬ k < a + 1 + n := by omega
          simp [h1, h2, h3, h4, h5, h6, Mem.unlisted]
/-- n bytes read after n bytes were written there are what was written, modulo 256ⁿ. -/
theorem Mem.load_store {m : Mem} (h : m.wf = true) (a n x : Nat) : (m.store a n x).load a n = x % 256 ^ n := by
  suffices H : ∀ k i, i + k = n → (m.store a n x).load (a + i) k = x / 256 ^ i % 256 ^ k by
    simpa using H n 0 (by omega)
  intro k
  induction k with
  | zero => intro i _; simp [Mem.load_zero, Nat.mod_one]
  | succ k ih =>
    intro i hi
    rw [Mem.load_succ (Mem.store_wf h a n x), Mem.get_store h, if_pos (by omega), Nat.add_assoc, ih (i + 1) (by omega)]
    have : a + i - a = i := by omega
    rw [this, Nat.pow_succ, Nat.pow_succ, ← Nat.div_div_eq_div_mul, Nat.mul_comm (256 ^ k), Nat.mod_mul]
    simp
/-- Two memories that read alike over n bytes load alike. -/
theorem Mem.load_congr {m c : Mem} (hm : m.wf = true) (hc : c.wf = true) {a n : Nat}
    (h : ∀ k, k < n → m.get (a + k) = c.get (a + k)) : m.load a n = c.load a n := by
  induction n generalizing a with
  | zero => rw [Mem.load_zero, Mem.load_zero]
  | succ n ih =>
    have h0 := h 0 (Nat.succ_pos n)
    rw [Mem.load_succ hm, Mem.load_succ hc, show m.get a = c.get a from h0]
    rw [ih fun k hk => by have := h (k + 1) (by omega); rwa [← Nat.add_assoc, Nat.add_right_comm] at this]

theorem Mem.filter_wfFrom {b : Nat} {m : Mem} (h : Mem.wfFrom b m = true) (p : Host.Cell → Bool) :
    Mem.wfFrom b (m.filter p) = true := by
  induction m generalizing b with
  | nil => rfl
  | cons x r ih =>
    obtain ⟨k, v⟩ := x
    rw [Mem.wfFrom_cons] at h
    rw [List.filter_cons]
    split
    · rw [Mem.wfFrom_cons]; exact ⟨h.1, h.2.1, ih h.2.2⟩
    · exact Mem.wfFrom_le (ih h.2.2) (by omega)
/-- Clearing bytes keeps the canonical form. -/
theorem Mem.clear_wf {m : Mem} (h : m.wf = true) (a n : Nat) : (m.clear a n).wf = true := Mem.filter_wfFrom h _
theorem Mem.wfFrom_iff {b : Nat} {m : Mem} :
    Mem.wfFrom b m = true ↔ (∀ c ∈ m, b ≤ c.1 ∧ c.2 ≠ 0) ∧ m.Pairwise (fun c d => c.1 < d.1) := by
  induction m generalizing b with
  | nil => simp [Mem.wfFrom]
  | cons x r ih =>
    obtain ⟨k, v⟩ := x
    rw [Mem.wfFrom_cons, ih, List.pairwise_cons]
    constructor
    · rintro ⟨h1, h2, h3, h4⟩
      refine ⟨?_, fun d hd => by have := (h3 d hd).1; omega, h4⟩
      intro c hc
      rcases List.mem_cons.mp hc with rfl | hc
      · exact ⟨h1, h2⟩
      · exact ⟨by have := (h3 c hc).1; omega, (h3 c hc).2⟩
    · rintro ⟨h1, h2, h3⟩
      exact ⟨(h1 _ (List.mem_cons_self)).1, (h1 _ (List.mem_cons_self)).2,
        fun c hc => ⟨h2 c hc, (h1 c (List.mem_cons_of_mem _ hc)).2⟩, h3⟩
/-- Cutting a range out and moving it keeps the canonical form. -/
theorem Mem.slice_wf {m : Mem} (h : m.wf = true) (a n b : Nat) : (m.slice a n b).wf = true := by
  have hf := Mem.wfFrom_iff.mp (Mem.filter_wfFrom h fun c => a ≤ c.1 && c.1 < a + n)
  refine Mem.wfFrom_iff.mpr ⟨?_, ?_⟩
  · intro c hc
    obtain ⟨d, hd, rfl⟩ := List.mem_map.mp hc
    exact ⟨Nat.zero_le _, (hf.1 d hd).2⟩
  · refine List.pairwise_map.mpr (hf.2.imp_of_mem ?_)
    intro c d hc hd hcd
    have h1 := (List.mem_filter.mp hc).2
    have h2 := (List.mem_filter.mp hd).2
    simp at h1 h2
    show c.1 - a + b < d.1 - a + b
    omega
/-- Replacing a range keeps the canonical form. -/
theorem Mem.paste_wf {m p : Mem} (h : m.wf = true) (hp : p.wf = true) (a n : Nat) : (m.paste a n p).wf = true := by
  have h0 := Mem.wfFrom_iff.mp h
  have h1 := Mem.wfFrom_iff.mp hp
  refine Mem.wfFrom_iff.mpr ⟨?_, ?_⟩
  · intro c hc
    refine ⟨Nat.zero_le _, ?_⟩
    simp only [Mem.paste, List.mem_append, List.mem_filter] at hc
    rcases hc with (hc | hc) | hc
    · exact (h0.1 c hc.1).2
    · exact (h1.1 c hc.1).2
    · exact (h0.1 c hc.1).2
  · refine List.pairwise_append.mpr ⟨List.pairwise_append.mpr ⟨h0.2.filter _, h1.2.filter _, ?_⟩, h0.2.filter _, ?_⟩
    · intro c hc d hd
      have h1 := (List.mem_filter.mp hc).2
      have h2 := (List.mem_filter.mp hd).2
      simp at h1 h2
      omega
    · intro c hc d hd
      have h2 := (List.mem_filter.mp hd).2
      rcases List.mem_append.mp hc with hc | hc <;>
        (have h1 := (List.mem_filter.mp hc).2; simp at h1 h2; omega)
/-- Equal memories are equal data: two canonical memories that read alike everywhere are equal. -/
theorem Mem.ext {b : Nat} {m c : Mem} (hm : Mem.wfFrom b m = true) (hc : Mem.wfFrom b c = true) (h : ∀ a, m.get a = c.get a) : m = c := by
  induction m generalizing b c with
  | nil =>
    cases c with
    | nil => rfl
    | cons y r =>
      obtain ⟨k, v⟩ := y
      rw [Mem.wfFrom_cons] at hc
      have := h k
      simp [Mem.get, Mem.unlisted] at this
      exact absurd this.symm hc.2.1
  | cons x r ih =>
    obtain ⟨k, v⟩ := x
    rw [Mem.wfFrom_cons] at hm
    cases c with
    | nil => have := h k; simp [Mem.get, Mem.unlisted] at this; exact absurd this hm.2.1
    | cons y q =>
      obtain ⟨l, w⟩ := y
      rw [Mem.wfFrom_cons] at hc
      have hkl : k = l := by
        rcases Nat.lt_trichotomy k l with hlt | he | hlt
        · have := h k
          have h1 : ¬ l = k := by omega
          simp [Mem.get, h1, hlt, Mem.unlisted] at this
          exact absurd this hm.2.1
        · exact he
        · have := h l
          have h1 : ¬ k = l := by omega
          simp [Mem.get, h1, hlt, Mem.unlisted] at this
          exact absurd this.symm hc.2.1
      subst hkl
      have hv : v = w := by have := h k; simpa [Mem.get] using this
      subst hv
      refine congrArg _ (ih hm.2.2 hc.2.2 fun a => ?_)
      by_cases ha : a < k + 1
      · rw [Mem.get_below hm.2.2 ha, Mem.get_below hc.2.2 ha]
      · have := h a
        have h1 : ¬ k = a := by omega
        have h2 : ¬ a < k := by omega
        simpa [Mem.get, h1, h2] using this

/-! ### Lists by index -/

@[simp] theorem length_setAt {α : Type} (l : List α) (n : Nat) (x : α) : (setAt l n x).length = l.length := by
  induction l generalizing n with
  | nil => rfl
  | cons y r ih => cases n <;> simp [setAt, ih]
@[simp] theorem length_modAt {α : Type} (l : List α) (n : Nat) (f : α → α) : (modAt l n f).length = l.length := by
  induction l generalizing n with
  | nil => rfl
  | cons y r ih => cases n <;> simp [modAt, ih]
theorem setAt_eq_set {α : Type} (l : List α) (n : Nat) (x : α) : setAt l n x = l.set n x := by
  induction l generalizing n with
  | nil => rfl
  | cons y r ih => cases n <;> simp [setAt, ih]
/-- The element at an index after a change at an index. -/
theorem getElem?_modAt {α : Type} (l : List α) (n k : Nat) (f : α → α) :
    (modAt l n f)[k]? = if k = n then l[k]?.map f else l[k]? := by
  induction l generalizing n k with
  | nil => simp [modAt]
  | cons y r ih =>
    cases n <;> cases k <;> simp [modAt, ih]
theorem getD_modAt_ne {α : Type} (l : List α) {n k : Nat} (f : α → α) (d : α) (h : k ≠ n) : (modAt l n f).getD k d = l.getD k d := by
  rw [List.getD_eq_getElem?_getD, getElem?_modAt, if_neg h, ← List.getD_eq_getElem?_getD]
theorem getD_modAt_self {α : Type} (l : List α) {n : Nat} (f : α → α) (d : α) (h : n < l.length) :
    (modAt l n f).getD n d = f (l.getD n d) := by
  rw [List.getD_eq_getElem?_getD, getElem?_modAt, if_pos rfl, List.getD_eq_getElem?_getD]
  simp [h]

end Sys2Proof.Machine
end

