-- ==== Sys2Proof/Laws/State.lean ====
section
/-! SUPPORT. What each update of the state and of a thread leaves as it was and what it writes, field by field. -/
set_option Elab.async false
namespace Sys2Proof.Machine

/-! ### Updates of the state -/

@[simp] theorem State.modCur_fields (s : State) (f : Thread → Thread) :
    (s.modCur f).out = s.out ∧ (s.modCur f).iw = s.iw ∧ (s.modCur f).now = s.now ∧ (s.modCur f).threads = s.threads
    ∧ (s.modCur f).teams = s.teams ∧ (s.modCur f).clusters = s.clusters ∧ (s.modCur f).grids = s.grids
    ∧ (s.modCur f).graphs = s.graphs ∧ (s.modCur f).queue = s.queue ∧ (s.modCur f).placeFrom = s.placeFrom
    ∧ (s.modCur f).saved = s.saved ∧ (s.modCur f).ctxs = s.ctxs ∧ (s.modCur f).cores = s.cores
    ∧ (s.modCur f).copies = s.copies ∧ (s.modCur f).mem = s.mem ∧ (s.modCur f).meta_ = s.meta_
    ∧ (s.modCur f).pages = s.pages ∧ (s.modCur f).regions = s.regions ∧ (s.modCur f).written = s.written
    ∧ (s.modCur f).l2 = s.l2 ∧ (s.modCur f).l2w = s.l2w ∧ (s.modCur f).recalls = s.recalls
    ∧ (s.modCur f).predict = s.predict ∧ (s.modCur f).home = s.home ∧ (s.modCur f).reqs = s.reqs
    ∧ (s.modCur f).expired = s.expired ∧ (s.modCur f).walks = s.walks ∧ (s.modCur f).wcache = s.wcache
    ∧ (s.modCur f).invals = s.invals ∧ (s.modCur f).moves = s.moves ∧ (s.modCur f).epochs = s.epochs
    ∧ (s.modCur f).jobs = s.jobs ∧ (s.modCur f).scratchMsgs = s.scratchMsgs ∧ (s.modCur f).spancfg = s.spancfg
    ∧ (s.modCur f).celltab = s.celltab ∧ (s.modCur f).cstate = s.cstate ∧ (s.modCur f).ppmask = s.ppmask
    ∧ (s.modCur f).pgcmd = s.pgcmd ∧ (s.modCur f).migctl = s.migctl ∧ (s.modCur f).migbpt = s.migbpt
    ∧ (s.modCur f).migfree = s.migfree ∧ (s.modCur f).migfht = s.migfht ∧ (s.modCur f).migrel = s.migrel
    ∧ (s.modCur f).migrht = s.migrht ∧ (s.modCur f).evcmd = s.evcmd ∧ (s.modCur f).ctxcmd = s.ctxcmd
    ∧ (s.modCur f).tlbiva = s.tlbiva ∧ (s.modCur f).tlbiOpen = s.tlbiOpen ∧ (s.modCur f).tlbiRead = s.tlbiRead
    ∧ (s.modCur f).rascnt = s.rascnt ∧ (s.modCur f).raslog = s.raslog ∧ (s.modCur f).rasovf = s.rasovf
    ∧ (s.modCur f).ages = s.ages ∧ (s.modCur f).pwrctl = s.pwrctl ∧ (s.modCur f).evstat = s.evstat
    ∧ (s.modCur f).evdest = s.evdest ∧ (s.modCur f).meas = s.meas ∧ (s.modCur f).attcmd = s.attcmd
    ∧ (s.modCur f).attbuf = s.attbuf ∧ (s.modCur f).attrep = s.attrep
    ∧ (s.modCur f).devReads = s.devReads ∧ (s.modCur f).devDone = s.devDone ∧ (s.modCur f).invOut = s.invOut ∧ (s.modCur f).eccFix = s.eccFix ∧ (s.modCur f).beats = s.beats ∧ (s.modCur f).suspicions = s.suspicions
    ∧ (s.modCur f).isolated = s.isolated ∧ (s.modCur f).links = s.links ∧ (s.modCur f).routes = s.routes
    ∧ (s.modCur f).ecc = s.ecc ∧ (s.modCur f).eccBusy = s.eccBusy ∧ (s.modCur f).booted = s.booted
    ∧ (s.modCur f).recovery = s.recovery ∧ (s.modCur f).agenda = s.agenda ∧ (s.modCur f).outbox = s.outbox
    ∧ (s.modCur f).seq = s.seq ∧ (s.modCur f).free = s.free ∧ (s.modCur f).turn = s.turn := by
  repeat (first | exact rfl | refine And.intro rfl ?_)
@[simp] theorem State.modCore_fields (s : State) (c : Nat) (f : Core → Core) :
    (s.modCore c f).cur = s.cur ∧ (s.modCore c f).out = s.out ∧ (s.modCore c f).iw = s.iw ∧ (s.modCore c f).now = s.now
    ∧ (s.modCore c f).threads = s.threads ∧ (s.modCore c f).teams = s.teams ∧ (s.modCore c f).clusters = s.clusters
    ∧ (s.modCore c f).grids = s.grids ∧ (s.modCore c f).graphs = s.graphs ∧ (s.modCore c f).queue = s.queue
    ∧ (s.modCore c f).placeFrom = s.placeFrom ∧ (s.modCore c f).saved = s.saved ∧ (s.modCore c f).ctxs = s.ctxs
    ∧ (s.modCore c f).copies = s.copies ∧ (s.modCore c f).mem = s.mem ∧ (s.modCore c f).meta_ = s.meta_
    ∧ (s.modCore c f).pages = s.pages ∧ (s.modCore c f).regions = s.regions ∧ (s.modCore c f).written = s.written
    ∧ (s.modCore c f).l2 = s.l2 ∧ (s.modCore c f).l2w = s.l2w ∧ (s.modCore c f).recalls = s.recalls
    ∧ (s.modCore c f).predict = s.predict ∧ (s.modCore c f).home = s.home ∧ (s.modCore c f).reqs = s.reqs
    ∧ (s.modCore c f).expired = s.expired ∧ (s.modCore c f).walks = s.walks ∧ (s.modCore c f).wcache = s.wcache
    ∧ (s.modCore c f).invals = s.invals ∧ (s.modCore c f).moves = s.moves ∧ (s.modCore c f).epochs = s.epochs
    ∧ (s.modCore c f).jobs = s.jobs ∧ (s.modCore c f).scratchMsgs = s.scratchMsgs ∧ (s.modCore c f).spancfg = s.spancfg
    ∧ (s.modCore c f).celltab = s.celltab ∧ (s.modCore c f).cstate = s.cstate ∧ (s.modCore c f).ppmask = s.ppmask
    ∧ (s.modCore c f).pgcmd = s.pgcmd ∧ (s.modCore c f).migctl = s.migctl ∧ (s.modCore c f).migbpt = s.migbpt
    ∧ (s.modCore c f).migfree = s.migfree ∧ (s.modCore c f).migfht = s.migfht ∧ (s.modCore c f).migrel = s.migrel
    ∧ (s.modCore c f).migrht = s.migrht ∧ (s.modCore c f).evcmd = s.evcmd ∧ (s.modCore c f).ctxcmd = s.ctxcmd
    ∧ (s.modCore c f).tlbiva = s.tlbiva ∧ (s.modCore c f).tlbiOpen = s.tlbiOpen ∧ (s.modCore c f).tlbiRead = s.tlbiRead
    ∧ (s.modCore c f).rascnt = s.rascnt ∧ (s.modCore c f).raslog = s.raslog ∧ (s.modCore c f).rasovf = s.rasovf
    ∧ (s.modCore c f).ages = s.ages ∧ (s.modCore c f).pwrctl = s.pwrctl ∧ (s.modCore c f).evstat = s.evstat
    ∧ (s.modCore c f).evdest = s.evdest ∧ (s.modCore c f).meas = s.meas ∧ (s.modCore c f).attcmd = s.attcmd
    ∧ (s.modCore c f).attbuf = s.attbuf ∧ (s.modCore c f).attrep = s.attrep
    ∧ (s.modCore c f).devReads = s.devReads ∧ (s.modCore c f).devDone = s.devDone ∧ (s.modCore c f).invOut = s.invOut ∧ (s.modCore c f).eccFix = s.eccFix ∧ (s.modCore c f).beats = s.beats ∧ (s.modCore c f).suspicions = s.suspicions
    ∧ (s.modCore c f).isolated = s.isolated ∧ (s.modCore c f).links = s.links ∧ (s.modCore c f).routes = s.routes
    ∧ (s.modCore c f).ecc = s.ecc ∧ (s.modCore c f).eccBusy = s.eccBusy ∧ (s.modCore c f).booted = s.booted
    ∧ (s.modCore c f).recovery = s.recovery ∧ (s.modCore c f).agenda = s.agenda ∧ (s.modCore c f).outbox = s.outbox
    ∧ (s.modCore c f).seq = s.seq ∧ (s.modCore c f).free = s.free ∧ (s.modCore c f).turn = s.turn := by
  repeat (first | exact rfl | refine And.intro rfl ?_)
@[simp] theorem State.modCtx_fields (s : State) (k : Nat) (f : Ctx → Ctx) :
    (s.modCtx k f).cur = s.cur ∧ (s.modCtx k f).out = s.out ∧ (s.modCtx k f).iw = s.iw ∧ (s.modCtx k f).now = s.now
    ∧ (s.modCtx k f).threads = s.threads ∧ (s.modCtx k f).teams = s.teams ∧ (s.modCtx k f).clusters = s.clusters
    ∧ (s.modCtx k f).grids = s.grids ∧ (s.modCtx k f).graphs = s.graphs ∧ (s.modCtx k f).queue = s.queue
    ∧ (s.modCtx k f).placeFrom = s.placeFrom ∧ (s.modCtx k f).saved = s.saved ∧ (s.modCtx k f).cores = s.cores
    ∧ (s.modCtx k f).copies = s.copies ∧ (s.modCtx k f).mem = s.mem ∧ (s.modCtx k f).meta_ = s.meta_
    ∧ (s.modCtx k f).pages = s.pages ∧ (s.modCtx k f).regions = s.regions ∧ (s.modCtx k f).written = s.written
    ∧ (s.modCtx k f).l2 = s.l2 ∧ (s.modCtx k f).l2w = s.l2w ∧ (s.modCtx k f).recalls = s.recalls
    ∧ (s.modCtx k f).predict = s.predict ∧ (s.modCtx k f).home = s.home ∧ (s.modCtx k f).reqs = s.reqs
    ∧ (s.modCtx k f).expired = s.expired ∧ (s.modCtx k f).walks = s.walks ∧ (s.modCtx k f).wcache = s.wcache
    ∧ (s.modCtx k f).invals = s.invals ∧ (s.modCtx k f).moves = s.moves ∧ (s.modCtx k f).epochs = s.epochs
    ∧ (s.modCtx k f).jobs = s.jobs ∧ (s.modCtx k f).scratchMsgs = s.scratchMsgs ∧ (s.modCtx k f).spancfg = s.spancfg
    ∧ (s.modCtx k f).celltab = s.celltab ∧ (s.modCtx k f).cstate = s.cstate ∧ (s.modCtx k f).ppmask = s.ppmask
    ∧ (s.modCtx k f).pgcmd = s.pgcmd ∧ (s.modCtx k f).migctl = s.migctl ∧ (s.modCtx k f).migbpt = s.migbpt
    ∧ (s.modCtx k f).migfree = s.migfree ∧ (s.modCtx k f).migfht = s.migfht ∧ (s.modCtx k f).migrel = s.migrel
    ∧ (s.modCtx k f).migrht = s.migrht ∧ (s.modCtx k f).evcmd = s.evcmd ∧ (s.modCtx k f).ctxcmd = s.ctxcmd
    ∧ (s.modCtx k f).tlbiva = s.tlbiva ∧ (s.modCtx k f).tlbiOpen = s.tlbiOpen ∧ (s.modCtx k f).tlbiRead = s.tlbiRead
    ∧ (s.modCtx k f).rascnt = s.rascnt ∧ (s.modCtx k f).raslog = s.raslog ∧ (s.modCtx k f).rasovf = s.rasovf
    ∧ (s.modCtx k f).ages = s.ages ∧ (s.modCtx k f).pwrctl = s.pwrctl ∧ (s.modCtx k f).evstat = s.evstat
    ∧ (s.modCtx k f).evdest = s.evdest ∧ (s.modCtx k f).meas = s.meas ∧ (s.modCtx k f).attcmd = s.attcmd
    ∧ (s.modCtx k f).attbuf = s.attbuf ∧ (s.modCtx k f).attrep = s.attrep
    ∧ (s.modCtx k f).devReads = s.devReads ∧ (s.modCtx k f).devDone = s.devDone ∧ (s.modCtx k f).invOut = s.invOut ∧ (s.modCtx k f).eccFix = s.eccFix ∧ (s.modCtx k f).beats = s.beats ∧ (s.modCtx k f).suspicions = s.suspicions
    ∧ (s.modCtx k f).isolated = s.isolated ∧ (s.modCtx k f).links = s.links ∧ (s.modCtx k f).routes = s.routes
    ∧ (s.modCtx k f).ecc = s.ecc ∧ (s.modCtx k f).eccBusy = s.eccBusy ∧ (s.modCtx k f).booted = s.booted
    ∧ (s.modCtx k f).recovery = s.recovery ∧ (s.modCtx k f).agenda = s.agenda ∧ (s.modCtx k f).outbox = s.outbox
    ∧ (s.modCtx k f).seq = s.seq ∧ (s.modCtx k f).free = s.free ∧ (s.modCtx k f).turn = s.turn := by
  repeat (first | exact rfl | refine And.intro rfl ?_)
@[simp] theorem State.modTeam_fields (s : State) (k : Nat) (f : Team → Team) :
    (s.modTeam k f).cur = s.cur ∧ (s.modTeam k f).out = s.out ∧ (s.modTeam k f).iw = s.iw ∧ (s.modTeam k f).now = s.now
    ∧ (s.modTeam k f).threads = s.threads ∧ (s.modTeam k f).clusters = s.clusters ∧ (s.modTeam k f).grids = s.grids
    ∧ (s.modTeam k f).graphs = s.graphs ∧ (s.modTeam k f).queue = s.queue ∧ (s.modTeam k f).placeFrom = s.placeFrom
    ∧ (s.modTeam k f).saved = s.saved ∧ (s.modTeam k f).ctxs = s.ctxs ∧ (s.modTeam k f).cores = s.cores
    ∧ (s.modTeam k f).copies = s.copies ∧ (s.modTeam k f).mem = s.mem ∧ (s.modTeam k f).meta_ = s.meta_
    ∧ (s.modTeam k f).pages = s.pages ∧ (s.modTeam k f).regions = s.regions ∧ (s.modTeam k f).written = s.written
    ∧ (s.modTeam k f).l2 = s.l2 ∧ (s.modTeam k f).l2w = s.l2w ∧ (s.modTeam k f).recalls = s.recalls
    ∧ (s.modTeam k f).predict = s.predict ∧ (s.modTeam k f).home = s.home ∧ (s.modTeam k f).reqs = s.reqs
    ∧ (s.modTeam k f).expired = s.expired ∧ (s.modTeam k f).walks = s.walks ∧ (s.modTeam k f).wcache = s.wcache
    ∧ (s.modTeam k f).invals = s.invals ∧ (s.modTeam k f).moves = s.moves ∧ (s.modTeam k f).epochs = s.epochs
    ∧ (s.modTeam k f).jobs = s.jobs ∧ (s.modTeam k f).scratchMsgs = s.scratchMsgs ∧ (s.modTeam k f).spancfg = s.spancfg
    ∧ (s.modTeam k f).celltab = s.celltab ∧ (s.modTeam k f).cstate = s.cstate ∧ (s.modTeam k f).ppmask = s.ppmask
    ∧ (s.modTeam k f).pgcmd = s.pgcmd ∧ (s.modTeam k f).migctl = s.migctl ∧ (s.modTeam k f).migbpt = s.migbpt
    ∧ (s.modTeam k f).migfree = s.migfree ∧ (s.modTeam k f).migfht = s.migfht ∧ (s.modTeam k f).migrel = s.migrel
    ∧ (s.modTeam k f).migrht = s.migrht ∧ (s.modTeam k f).evcmd = s.evcmd ∧ (s.modTeam k f).ctxcmd = s.ctxcmd
    ∧ (s.modTeam k f).tlbiva = s.tlbiva ∧ (s.modTeam k f).tlbiOpen = s.tlbiOpen ∧ (s.modTeam k f).tlbiRead = s.tlbiRead
    ∧ (s.modTeam k f).rascnt = s.rascnt ∧ (s.modTeam k f).raslog = s.raslog ∧ (s.modTeam k f).rasovf = s.rasovf
    ∧ (s.modTeam k f).ages = s.ages ∧ (s.modTeam k f).pwrctl = s.pwrctl ∧ (s.modTeam k f).evstat = s.evstat
    ∧ (s.modTeam k f).evdest = s.evdest ∧ (s.modTeam k f).meas = s.meas ∧ (s.modTeam k f).attcmd = s.attcmd
    ∧ (s.modTeam k f).attbuf = s.attbuf ∧ (s.modTeam k f).attrep = s.attrep
    ∧ (s.modTeam k f).devReads = s.devReads ∧ (s.modTeam k f).devDone = s.devDone ∧ (s.modTeam k f).invOut = s.invOut ∧ (s.modTeam k f).eccFix = s.eccFix ∧ (s.modTeam k f).beats = s.beats ∧ (s.modTeam k f).suspicions = s.suspicions
    ∧ (s.modTeam k f).isolated = s.isolated ∧ (s.modTeam k f).links = s.links ∧ (s.modTeam k f).routes = s.routes
    ∧ (s.modTeam k f).ecc = s.ecc ∧ (s.modTeam k f).eccBusy = s.eccBusy ∧ (s.modTeam k f).booted = s.booted
    ∧ (s.modTeam k f).recovery = s.recovery ∧ (s.modTeam k f).agenda = s.agenda ∧ (s.modTeam k f).outbox = s.outbox
    ∧ (s.modTeam k f).seq = s.seq ∧ (s.modTeam k f).free = s.free ∧ (s.modTeam k f).turn = s.turn := by
  repeat (first | exact rfl | refine And.intro rfl ?_)
@[simp] theorem State.modGrid_fields (s : State) (k : Nat) (f : Grid → Grid) :
    (s.modGrid k f).cur = s.cur ∧ (s.modGrid k f).out = s.out ∧ (s.modGrid k f).iw = s.iw ∧ (s.modGrid k f).now = s.now
    ∧ (s.modGrid k f).threads = s.threads ∧ (s.modGrid k f).teams = s.teams ∧ (s.modGrid k f).clusters = s.clusters
    ∧ (s.modGrid k f).graphs = s.graphs ∧ (s.modGrid k f).queue = s.queue ∧ (s.modGrid k f).placeFrom = s.placeFrom
    ∧ (s.modGrid k f).saved = s.saved ∧ (s.modGrid k f).ctxs = s.ctxs ∧ (s.modGrid k f).cores = s.cores
    ∧ (s.modGrid k f).copies = s.copies ∧ (s.modGrid k f).mem = s.mem ∧ (s.modGrid k f).meta_ = s.meta_
    ∧ (s.modGrid k f).pages = s.pages ∧ (s.modGrid k f).regions = s.regions ∧ (s.modGrid k f).written = s.written
    ∧ (s.modGrid k f).l2 = s.l2 ∧ (s.modGrid k f).l2w = s.l2w ∧ (s.modGrid k f).recalls = s.recalls
    ∧ (s.modGrid k f).predict = s.predict ∧ (s.modGrid k f).home = s.home ∧ (s.modGrid k f).reqs = s.reqs
    ∧ (s.modGrid k f).expired = s.expired ∧ (s.modGrid k f).walks = s.walks ∧ (s.modGrid k f).wcache = s.wcache
    ∧ (s.modGrid k f).invals = s.invals ∧ (s.modGrid k f).moves = s.moves ∧ (s.modGrid k f).epochs = s.epochs
    ∧ (s.modGrid k f).jobs = s.jobs ∧ (s.modGrid k f).scratchMsgs = s.scratchMsgs ∧ (s.modGrid k f).spancfg = s.spancfg
    ∧ (s.modGrid k f).celltab = s.celltab ∧ (s.modGrid k f).cstate = s.cstate ∧ (s.modGrid k f).ppmask = s.ppmask
    ∧ (s.modGrid k f).pgcmd = s.pgcmd ∧ (s.modGrid k f).migctl = s.migctl ∧ (s.modGrid k f).migbpt = s.migbpt
    ∧ (s.modGrid k f).migfree = s.migfree ∧ (s.modGrid k f).migfht = s.migfht ∧ (s.modGrid k f).migrel = s.migrel
    ∧ (s.modGrid k f).migrht = s.migrht ∧ (s.modGrid k f).evcmd = s.evcmd ∧ (s.modGrid k f).ctxcmd = s.ctxcmd
    ∧ (s.modGrid k f).tlbiva = s.tlbiva ∧ (s.modGrid k f).tlbiOpen = s.tlbiOpen ∧ (s.modGrid k f).tlbiRead = s.tlbiRead
    ∧ (s.modGrid k f).rascnt = s.rascnt ∧ (s.modGrid k f).raslog = s.raslog ∧ (s.modGrid k f).rasovf = s.rasovf
    ∧ (s.modGrid k f).ages = s.ages ∧ (s.modGrid k f).pwrctl = s.pwrctl ∧ (s.modGrid k f).evstat = s.evstat
    ∧ (s.modGrid k f).evdest = s.evdest ∧ (s.modGrid k f).meas = s.meas ∧ (s.modGrid k f).attcmd = s.attcmd
    ∧ (s.modGrid k f).attbuf = s.attbuf ∧ (s.modGrid k f).attrep = s.attrep
    ∧ (s.modGrid k f).devReads = s.devReads ∧ (s.modGrid k f).devDone = s.devDone ∧ (s.modGrid k f).invOut = s.invOut ∧ (s.modGrid k f).eccFix = s.eccFix ∧ (s.modGrid k f).beats = s.beats ∧ (s.modGrid k f).suspicions = s.suspicions
    ∧ (s.modGrid k f).isolated = s.isolated ∧ (s.modGrid k f).links = s.links ∧ (s.modGrid k f).routes = s.routes
    ∧ (s.modGrid k f).ecc = s.ecc ∧ (s.modGrid k f).eccBusy = s.eccBusy ∧ (s.modGrid k f).booted = s.booted
    ∧ (s.modGrid k f).recovery = s.recovery ∧ (s.modGrid k f).agenda = s.agenda ∧ (s.modGrid k f).outbox = s.outbox
    ∧ (s.modGrid k f).seq = s.seq ∧ (s.modGrid k f).free = s.free ∧ (s.modGrid k f).turn = s.turn := by
  repeat (first | exact rfl | refine And.intro rfl ?_)
@[simp] theorem State.modCopy_fields (s : State) (k : Nat) (f : Copy → Copy) :
    (s.modCopy k f).cur = s.cur ∧ (s.modCopy k f).out = s.out ∧ (s.modCopy k f).iw = s.iw ∧ (s.modCopy k f).now = s.now
    ∧ (s.modCopy k f).threads = s.threads ∧ (s.modCopy k f).teams = s.teams ∧ (s.modCopy k f).clusters = s.clusters
    ∧ (s.modCopy k f).grids = s.grids ∧ (s.modCopy k f).graphs = s.graphs ∧ (s.modCopy k f).queue = s.queue
    ∧ (s.modCopy k f).placeFrom = s.placeFrom ∧ (s.modCopy k f).saved = s.saved ∧ (s.modCopy k f).ctxs = s.ctxs
    ∧ (s.modCopy k f).cores = s.cores ∧ (s.modCopy k f).mem = s.mem ∧ (s.modCopy k f).meta_ = s.meta_
    ∧ (s.modCopy k f).pages = s.pages ∧ (s.modCopy k f).regions = s.regions ∧ (s.modCopy k f).written = s.written
    ∧ (s.modCopy k f).l2 = s.l2 ∧ (s.modCopy k f).l2w = s.l2w ∧ (s.modCopy k f).recalls = s.recalls
    ∧ (s.modCopy k f).predict = s.predict ∧ (s.modCopy k f).home = s.home ∧ (s.modCopy k f).reqs = s.reqs
    ∧ (s.modCopy k f).expired = s.expired ∧ (s.modCopy k f).walks = s.walks ∧ (s.modCopy k f).wcache = s.wcache
    ∧ (s.modCopy k f).invals = s.invals ∧ (s.modCopy k f).moves = s.moves ∧ (s.modCopy k f).epochs = s.epochs
    ∧ (s.modCopy k f).jobs = s.jobs ∧ (s.modCopy k f).scratchMsgs = s.scratchMsgs ∧ (s.modCopy k f).spancfg = s.spancfg
    ∧ (s.modCopy k f).celltab = s.celltab ∧ (s.modCopy k f).cstate = s.cstate ∧ (s.modCopy k f).ppmask = s.ppmask
    ∧ (s.modCopy k f).pgcmd = s.pgcmd ∧ (s.modCopy k f).migctl = s.migctl ∧ (s.modCopy k f).migbpt = s.migbpt
    ∧ (s.modCopy k f).migfree = s.migfree ∧ (s.modCopy k f).migfht = s.migfht ∧ (s.modCopy k f).migrel = s.migrel
    ∧ (s.modCopy k f).migrht = s.migrht ∧ (s.modCopy k f).evcmd = s.evcmd ∧ (s.modCopy k f).ctxcmd = s.ctxcmd
    ∧ (s.modCopy k f).tlbiva = s.tlbiva ∧ (s.modCopy k f).tlbiOpen = s.tlbiOpen ∧ (s.modCopy k f).tlbiRead = s.tlbiRead
    ∧ (s.modCopy k f).rascnt = s.rascnt ∧ (s.modCopy k f).raslog = s.raslog ∧ (s.modCopy k f).rasovf = s.rasovf
    ∧ (s.modCopy k f).ages = s.ages ∧ (s.modCopy k f).pwrctl = s.pwrctl ∧ (s.modCopy k f).evstat = s.evstat
    ∧ (s.modCopy k f).evdest = s.evdest ∧ (s.modCopy k f).meas = s.meas ∧ (s.modCopy k f).attcmd = s.attcmd
    ∧ (s.modCopy k f).attbuf = s.attbuf ∧ (s.modCopy k f).attrep = s.attrep
    ∧ (s.modCopy k f).devReads = s.devReads ∧ (s.modCopy k f).devDone = s.devDone ∧ (s.modCopy k f).invOut = s.invOut ∧ (s.modCopy k f).eccFix = s.eccFix ∧ (s.modCopy k f).beats = s.beats ∧ (s.modCopy k f).suspicions = s.suspicions
    ∧ (s.modCopy k f).isolated = s.isolated ∧ (s.modCopy k f).links = s.links ∧ (s.modCopy k f).routes = s.routes
    ∧ (s.modCopy k f).ecc = s.ecc ∧ (s.modCopy k f).eccBusy = s.eccBusy ∧ (s.modCopy k f).booted = s.booted
    ∧ (s.modCopy k f).recovery = s.recovery ∧ (s.modCopy k f).agenda = s.agenda ∧ (s.modCopy k f).outbox = s.outbox
    ∧ (s.modCopy k f).seq = s.seq ∧ (s.modCopy k f).free = s.free ∧ (s.modCopy k f).turn = s.turn := by
  repeat (first | exact rfl | refine And.intro rfl ?_)
@[simp] theorem State.say_fields (s : State) (m : OutMsg) :
    (s.say m).cur = s.cur ∧ (s.say m).out = s.out ∧ (s.say m).iw = s.iw ∧ (s.say m).now = s.now
    ∧ (s.say m).threads = s.threads ∧ (s.say m).teams = s.teams ∧ (s.say m).clusters = s.clusters
    ∧ (s.say m).grids = s.grids ∧ (s.say m).graphs = s.graphs ∧ (s.say m).queue = s.queue
    ∧ (s.say m).placeFrom = s.placeFrom ∧ (s.say m).saved = s.saved ∧ (s.say m).ctxs = s.ctxs ∧ (s.say m).cores = s.cores
    ∧ (s.say m).copies = s.copies ∧ (s.say m).mem = s.mem ∧ (s.say m).meta_ = s.meta_ ∧ (s.say m).pages = s.pages
    ∧ (s.say m).regions = s.regions ∧ (s.say m).written = s.written ∧ (s.say m).l2 = s.l2 ∧ (s.say m).l2w = s.l2w
    ∧ (s.say m).recalls = s.recalls ∧ (s.say m).predict = s.predict ∧ (s.say m).home = s.home ∧ (s.say m).reqs = s.reqs
    ∧ (s.say m).expired = s.expired ∧ (s.say m).walks = s.walks ∧ (s.say m).wcache = s.wcache ∧ (s.say m).invals = s.invals
    ∧ (s.say m).moves = s.moves ∧ (s.say m).epochs = s.epochs ∧ (s.say m).jobs = s.jobs
    ∧ (s.say m).scratchMsgs = s.scratchMsgs ∧ (s.say m).spancfg = s.spancfg ∧ (s.say m).celltab = s.celltab
    ∧ (s.say m).cstate = s.cstate ∧ (s.say m).ppmask = s.ppmask ∧ (s.say m).pgcmd = s.pgcmd ∧ (s.say m).migctl = s.migctl
    ∧ (s.say m).migbpt = s.migbpt ∧ (s.say m).migfree = s.migfree ∧ (s.say m).migfht = s.migfht
    ∧ (s.say m).migrel = s.migrel ∧ (s.say m).migrht = s.migrht ∧ (s.say m).evcmd = s.evcmd ∧ (s.say m).ctxcmd = s.ctxcmd
    ∧ (s.say m).tlbiva = s.tlbiva ∧ (s.say m).tlbiOpen = s.tlbiOpen ∧ (s.say m).tlbiRead = s.tlbiRead
    ∧ (s.say m).rascnt = s.rascnt ∧ (s.say m).raslog = s.raslog ∧ (s.say m).rasovf = s.rasovf ∧ (s.say m).ages = s.ages
    ∧ (s.say m).pwrctl = s.pwrctl ∧ (s.say m).evstat = s.evstat ∧ (s.say m).evdest = s.evdest ∧ (s.say m).meas = s.meas
    ∧ (s.say m).attcmd = s.attcmd ∧ (s.say m).attbuf = s.attbuf ∧ (s.say m).attrep = s.attrep
    ∧ (s.say m).devReads = s.devReads ∧ (s.say m).devDone = s.devDone ∧ (s.say m).invOut = s.invOut ∧ (s.say m).eccFix = s.eccFix ∧ (s.say m).beats = s.beats
    ∧ (s.say m).suspicions = s.suspicions ∧ (s.say m).isolated = s.isolated ∧ (s.say m).links = s.links
    ∧ (s.say m).routes = s.routes ∧ (s.say m).ecc = s.ecc ∧ (s.say m).eccBusy = s.eccBusy ∧ (s.say m).booted = s.booted
    ∧ (s.say m).recovery = s.recovery ∧ (s.say m).agenda = s.agenda ∧ (s.say m).seq = s.seq ∧ (s.say m).free = s.free
    ∧ (s.say m).turn = s.turn := by
  repeat (first | exact rfl | refine And.intro rfl ?_)
@[simp] theorem State.fresh_fields (s : State) :
    (s.fresh.2).cur = s.cur ∧ (s.fresh.2).out = s.out ∧ (s.fresh.2).iw = s.iw ∧ (s.fresh.2).now = s.now
    ∧ (s.fresh.2).threads = s.threads ∧ (s.fresh.2).teams = s.teams ∧ (s.fresh.2).clusters = s.clusters
    ∧ (s.fresh.2).grids = s.grids ∧ (s.fresh.2).graphs = s.graphs ∧ (s.fresh.2).queue = s.queue
    ∧ (s.fresh.2).placeFrom = s.placeFrom ∧ (s.fresh.2).saved = s.saved ∧ (s.fresh.2).ctxs = s.ctxs
    ∧ (s.fresh.2).cores = s.cores ∧ (s.fresh.2).copies = s.copies ∧ (s.fresh.2).mem = s.mem ∧ (s.fresh.2).meta_ = s.meta_
    ∧ (s.fresh.2).pages = s.pages ∧ (s.fresh.2).regions = s.regions ∧ (s.fresh.2).written = s.written
    ∧ (s.fresh.2).l2 = s.l2 ∧ (s.fresh.2).l2w = s.l2w ∧ (s.fresh.2).recalls = s.recalls ∧ (s.fresh.2).predict = s.predict
    ∧ (s.fresh.2).home = s.home ∧ (s.fresh.2).reqs = s.reqs ∧ (s.fresh.2).expired = s.expired ∧ (s.fresh.2).walks = s.walks
    ∧ (s.fresh.2).wcache = s.wcache ∧ (s.fresh.2).invals = s.invals ∧ (s.fresh.2).moves = s.moves
    ∧ (s.fresh.2).epochs = s.epochs ∧ (s.fresh.2).jobs = s.jobs ∧ (s.fresh.2).scratchMsgs = s.scratchMsgs
    ∧ (s.fresh.2).spancfg = s.spancfg ∧ (s.fresh.2).celltab = s.celltab ∧ (s.fresh.2).cstate = s.cstate
    ∧ (s.fresh.2).ppmask = s.ppmask ∧ (s.fresh.2).pgcmd = s.pgcmd ∧ (s.fresh.2).migctl = s.migctl
    ∧ (s.fresh.2).migbpt = s.migbpt ∧ (s.fresh.2).migfree = s.migfree ∧ (s.fresh.2).migfht = s.migfht
    ∧ (s.fresh.2).migrel = s.migrel ∧ (s.fresh.2).migrht = s.migrht ∧ (s.fresh.2).evcmd = s.evcmd
    ∧ (s.fresh.2).ctxcmd = s.ctxcmd ∧ (s.fresh.2).tlbiva = s.tlbiva ∧ (s.fresh.2).tlbiOpen = s.tlbiOpen
    ∧ (s.fresh.2).tlbiRead = s.tlbiRead ∧ (s.fresh.2).rascnt = s.rascnt ∧ (s.fresh.2).raslog = s.raslog
    ∧ (s.fresh.2).rasovf = s.rasovf ∧ (s.fresh.2).ages = s.ages ∧ (s.fresh.2).pwrctl = s.pwrctl
    ∧ (s.fresh.2).evstat = s.evstat ∧ (s.fresh.2).evdest = s.evdest ∧ (s.fresh.2).meas = s.meas
    ∧ (s.fresh.2).attcmd = s.attcmd ∧ (s.fresh.2).attbuf = s.attbuf ∧ (s.fresh.2).attrep = s.attrep
    ∧ (s.fresh.2).devReads = s.devReads ∧ (s.fresh.2).devDone = s.devDone ∧ (s.fresh.2).invOut = s.invOut ∧ (s.fresh.2).eccFix = s.eccFix ∧ (s.fresh.2).beats = s.beats
    ∧ (s.fresh.2).suspicions = s.suspicions ∧ (s.fresh.2).isolated = s.isolated ∧ (s.fresh.2).links = s.links
    ∧ (s.fresh.2).routes = s.routes ∧ (s.fresh.2).ecc = s.ecc ∧ (s.fresh.2).eccBusy = s.eccBusy
    ∧ (s.fresh.2).booted = s.booted ∧ (s.fresh.2).recovery = s.recovery ∧ (s.fresh.2).agenda = s.agenda
    ∧ (s.fresh.2).outbox = s.outbox ∧ (s.fresh.2).free = s.free ∧ (s.fresh.2).turn = s.turn := by
  repeat (first | exact rfl | refine And.intro rfl ?_)
@[simp] theorem State.wake_fields (s : State) :
    (s.wake).out = s.out ∧ (s.wake).iw = s.iw ∧ (s.wake).now = s.now ∧ (s.wake).teams = s.teams
    ∧ (s.wake).clusters = s.clusters ∧ (s.wake).grids = s.grids ∧ (s.wake).graphs = s.graphs ∧ (s.wake).queue = s.queue
    ∧ (s.wake).placeFrom = s.placeFrom ∧ (s.wake).saved = s.saved ∧ (s.wake).ctxs = s.ctxs ∧ (s.wake).cores = s.cores
    ∧ (s.wake).copies = s.copies ∧ (s.wake).mem = s.mem ∧ (s.wake).meta_ = s.meta_ ∧ (s.wake).pages = s.pages
    ∧ (s.wake).regions = s.regions ∧ (s.wake).written = s.written ∧ (s.wake).l2 = s.l2 ∧ (s.wake).l2w = s.l2w
    ∧ (s.wake).recalls = s.recalls ∧ (s.wake).predict = s.predict ∧ (s.wake).home = s.home ∧ (s.wake).reqs = s.reqs
    ∧ (s.wake).expired = s.expired ∧ (s.wake).walks = s.walks ∧ (s.wake).wcache = s.wcache ∧ (s.wake).invals = s.invals
    ∧ (s.wake).moves = s.moves ∧ (s.wake).epochs = s.epochs ∧ (s.wake).jobs = s.jobs ∧ (s.wake).scratchMsgs = s.scratchMsgs
    ∧ (s.wake).spancfg = s.spancfg ∧ (s.wake).celltab = s.celltab ∧ (s.wake).cstate = s.cstate ∧ (s.wake).ppmask = s.ppmask
    ∧ (s.wake).pgcmd = s.pgcmd ∧ (s.wake).migctl = s.migctl ∧ (s.wake).migbpt = s.migbpt ∧ (s.wake).migfree = s.migfree
    ∧ (s.wake).migfht = s.migfht ∧ (s.wake).migrel = s.migrel ∧ (s.wake).migrht = s.migrht ∧ (s.wake).evcmd = s.evcmd
    ∧ (s.wake).ctxcmd = s.ctxcmd ∧ (s.wake).tlbiva = s.tlbiva ∧ (s.wake).tlbiOpen = s.tlbiOpen
    ∧ (s.wake).tlbiRead = s.tlbiRead ∧ (s.wake).rascnt = s.rascnt ∧ (s.wake).raslog = s.raslog ∧ (s.wake).rasovf = s.rasovf
    ∧ (s.wake).ages = s.ages ∧ (s.wake).pwrctl = s.pwrctl ∧ (s.wake).evstat = s.evstat ∧ (s.wake).evdest = s.evdest
    ∧ (s.wake).meas = s.meas ∧ (s.wake).attcmd = s.attcmd ∧ (s.wake).attbuf = s.attbuf ∧ (s.wake).attrep = s.attrep
    ∧ (s.wake).devReads = s.devReads ∧ (s.wake).devDone = s.devDone ∧ (s.wake).invOut = s.invOut ∧ (s.wake).eccFix = s.eccFix ∧ (s.wake).beats = s.beats
    ∧ (s.wake).suspicions = s.suspicions ∧ (s.wake).isolated = s.isolated ∧ (s.wake).links = s.links
    ∧ (s.wake).routes = s.routes ∧ (s.wake).ecc = s.ecc ∧ (s.wake).eccBusy = s.eccBusy ∧ (s.wake).booted = s.booted
    ∧ (s.wake).recovery = s.recovery ∧ (s.wake).agenda = s.agenda ∧ (s.wake).outbox = s.outbox ∧ (s.wake).seq = s.seq
    ∧ (s.wake).free = s.free ∧ (s.wake).turn = s.turn := by
  repeat (first | exact rfl | refine And.intro rfl ?_)
@[simp] theorem State.checkOut_fields (s : State) (t : Thread) :
    (s.checkOut t).iw = s.iw ∧ (s.checkOut t).now = s.now ∧ (s.checkOut t).threads = s.threads
    ∧ (s.checkOut t).teams = s.teams ∧ (s.checkOut t).clusters = s.clusters ∧ (s.checkOut t).grids = s.grids
    ∧ (s.checkOut t).graphs = s.graphs ∧ (s.checkOut t).queue = s.queue ∧ (s.checkOut t).placeFrom = s.placeFrom
    ∧ (s.checkOut t).saved = s.saved ∧ (s.checkOut t).ctxs = s.ctxs ∧ (s.checkOut t).cores = s.cores
    ∧ (s.checkOut t).copies = s.copies ∧ (s.checkOut t).mem = s.mem ∧ (s.checkOut t).meta_ = s.meta_
    ∧ (s.checkOut t).pages = s.pages ∧ (s.checkOut t).regions = s.regions ∧ (s.checkOut t).written = s.written
    ∧ (s.checkOut t).l2 = s.l2 ∧ (s.checkOut t).l2w = s.l2w ∧ (s.checkOut t).recalls = s.recalls
    ∧ (s.checkOut t).predict = s.predict ∧ (s.checkOut t).home = s.home ∧ (s.checkOut t).reqs = s.reqs
    ∧ (s.checkOut t).expired = s.expired ∧ (s.checkOut t).walks = s.walks ∧ (s.checkOut t).wcache = s.wcache
    ∧ (s.checkOut t).invals = s.invals ∧ (s.checkOut t).moves = s.moves ∧ (s.checkOut t).epochs = s.epochs
    ∧ (s.checkOut t).jobs = s.jobs ∧ (s.checkOut t).scratchMsgs = s.scratchMsgs ∧ (s.checkOut t).spancfg = s.spancfg
    ∧ (s.checkOut t).celltab = s.celltab ∧ (s.checkOut t).cstate = s.cstate ∧ (s.checkOut t).ppmask = s.ppmask
    ∧ (s.checkOut t).pgcmd = s.pgcmd ∧ (s.checkOut t).migctl = s.migctl ∧ (s.checkOut t).migbpt = s.migbpt
    ∧ (s.checkOut t).migfree = s.migfree ∧ (s.checkOut t).migfht = s.migfht ∧ (s.checkOut t).migrel = s.migrel
    ∧ (s.checkOut t).migrht = s.migrht ∧ (s.checkOut t).evcmd = s.evcmd ∧ (s.checkOut t).ctxcmd = s.ctxcmd
    ∧ (s.checkOut t).tlbiva = s.tlbiva ∧ (s.checkOut t).tlbiOpen = s.tlbiOpen ∧ (s.checkOut t).tlbiRead = s.tlbiRead
    ∧ (s.checkOut t).rascnt = s.rascnt ∧ (s.checkOut t).raslog = s.raslog ∧ (s.checkOut t).rasovf = s.rasovf
    ∧ (s.checkOut t).ages = s.ages ∧ (s.checkOut t).pwrctl = s.pwrctl ∧ (s.checkOut t).evstat = s.evstat
    ∧ (s.checkOut t).evdest = s.evdest ∧ (s.checkOut t).meas = s.meas ∧ (s.checkOut t).attcmd = s.attcmd
    ∧ (s.checkOut t).attbuf = s.attbuf ∧ (s.checkOut t).attrep = s.attrep
    ∧ (s.checkOut t).devReads = s.devReads ∧ (s.checkOut t).devDone = s.devDone ∧ (s.checkOut t).invOut = s.invOut ∧ (s.checkOut t).eccFix = s.eccFix ∧ (s.checkOut t).beats = s.beats ∧ (s.checkOut t).suspicions = s.suspicions
    ∧ (s.checkOut t).isolated = s.isolated ∧ (s.checkOut t).links = s.links ∧ (s.checkOut t).routes = s.routes
    ∧ (s.checkOut t).ecc = s.ecc ∧ (s.checkOut t).eccBusy = s.eccBusy ∧ (s.checkOut t).booted = s.booted
    ∧ (s.checkOut t).recovery = s.recovery ∧ (s.checkOut t).agenda = s.agenda ∧ (s.checkOut t).outbox = s.outbox
    ∧ (s.checkOut t).seq = s.seq ∧ (s.checkOut t).free = s.free ∧ (s.checkOut t).turn = s.turn := by
  repeat (first | exact rfl | refine And.intro rfl ?_)
@[simp] theorem State.l2mod_fields (s : State) (line : Nat) (u : Option Nat) (f : L2Line → L2Line) :
    (s.l2mod line u f).cur = s.cur ∧ (s.l2mod line u f).out = s.out ∧ (s.l2mod line u f).iw = s.iw
    ∧ (s.l2mod line u f).now = s.now ∧ (s.l2mod line u f).threads = s.threads ∧ (s.l2mod line u f).teams = s.teams
    ∧ (s.l2mod line u f).clusters = s.clusters ∧ (s.l2mod line u f).grids = s.grids ∧ (s.l2mod line u f).graphs = s.graphs
    ∧ (s.l2mod line u f).queue = s.queue ∧ (s.l2mod line u f).placeFrom = s.placeFrom ∧ (s.l2mod line u f).saved = s.saved
    ∧ (s.l2mod line u f).ctxs = s.ctxs ∧ (s.l2mod line u f).cores = s.cores ∧ (s.l2mod line u f).copies = s.copies
    ∧ (s.l2mod line u f).mem = s.mem ∧ (s.l2mod line u f).meta_ = s.meta_ ∧ (s.l2mod line u f).pages = s.pages
    ∧ (s.l2mod line u f).regions = s.regions ∧ (s.l2mod line u f).written = s.written ∧ (s.l2mod line u f).l2w = s.l2w
    ∧ (s.l2mod line u f).recalls = s.recalls ∧ (s.l2mod line u f).predict = s.predict ∧ (s.l2mod line u f).home = s.home
    ∧ (s.l2mod line u f).reqs = s.reqs ∧ (s.l2mod line u f).expired = s.expired ∧ (s.l2mod line u f).walks = s.walks
    ∧ (s.l2mod line u f).wcache = s.wcache ∧ (s.l2mod line u f).invals = s.invals ∧ (s.l2mod line u f).moves = s.moves
    ∧ (s.l2mod line u f).epochs = s.epochs ∧ (s.l2mod line u f).jobs = s.jobs
    ∧ (s.l2mod line u f).scratchMsgs = s.scratchMsgs ∧ (s.l2mod line u f).spancfg = s.spancfg
    ∧ (s.l2mod line u f).celltab = s.celltab ∧ (s.l2mod line u f).cstate = s.cstate ∧ (s.l2mod line u f).ppmask = s.ppmask
    ∧ (s.l2mod line u f).pgcmd = s.pgcmd ∧ (s.l2mod line u f).migctl = s.migctl ∧ (s.l2mod line u f).migbpt = s.migbpt
    ∧ (s.l2mod line u f).migfree = s.migfree ∧ (s.l2mod line u f).migfht = s.migfht ∧ (s.l2mod line u f).migrel = s.migrel
    ∧ (s.l2mod line u f).migrht = s.migrht ∧ (s.l2mod line u f).evcmd = s.evcmd ∧ (s.l2mod line u f).ctxcmd = s.ctxcmd
    ∧ (s.l2mod line u f).tlbiva = s.tlbiva ∧ (s.l2mod line u f).tlbiOpen = s.tlbiOpen
    ∧ (s.l2mod line u f).tlbiRead = s.tlbiRead ∧ (s.l2mod line u f).rascnt = s.rascnt ∧ (s.l2mod line u f).raslog = s.raslog
    ∧ (s.l2mod line u f).rasovf = s.rasovf ∧ (s.l2mod line u f).ages = s.ages ∧ (s.l2mod line u f).pwrctl = s.pwrctl
    ∧ (s.l2mod line u f).evstat = s.evstat ∧ (s.l2mod line u f).evdest = s.evdest ∧ (s.l2mod line u f).meas = s.meas
    ∧ (s.l2mod line u f).attcmd = s.attcmd ∧ (s.l2mod line u f).attbuf = s.attbuf ∧ (s.l2mod line u f).attrep = s.attrep
    ∧ (s.l2mod line u f).devReads = s.devReads ∧ (s.l2mod line u f).devDone = s.devDone ∧ (s.l2mod line u f).invOut = s.invOut ∧ (s.l2mod line u f).eccFix = s.eccFix ∧ (s.l2mod line u f).beats = s.beats
    ∧ (s.l2mod line u f).suspicions = s.suspicions ∧ (s.l2mod line u f).isolated = s.isolated
    ∧ (s.l2mod line u f).links = s.links ∧ (s.l2mod line u f).routes = s.routes ∧ (s.l2mod line u f).ecc = s.ecc
    ∧ (s.l2mod line u f).eccBusy = s.eccBusy ∧ (s.l2mod line u f).booted = s.booted
    ∧ (s.l2mod line u f).recovery = s.recovery ∧ (s.l2mod line u f).agenda = s.agenda ∧ (s.l2mod line u f).outbox = s.outbox
    ∧ (s.l2mod line u f).seq = s.seq ∧ (s.l2mod line u f).free = s.free ∧ (s.l2mod line u f).turn = s.turn := by
  repeat (first | exact rfl | refine And.intro rfl ?_)
@[simp] theorem State.l2drop_fields (s : State) (line : Nat) (u : Option Nat) :
    (s.l2drop line u).cur = s.cur ∧ (s.l2drop line u).out = s.out ∧ (s.l2drop line u).iw = s.iw
    ∧ (s.l2drop line u).now = s.now ∧ (s.l2drop line u).threads = s.threads ∧ (s.l2drop line u).teams = s.teams
    ∧ (s.l2drop line u).clusters = s.clusters ∧ (s.l2drop line u).grids = s.grids ∧ (s.l2drop line u).graphs = s.graphs
    ∧ (s.l2drop line u).queue = s.queue ∧ (s.l2drop line u).placeFrom = s.placeFrom ∧ (s.l2drop line u).saved = s.saved
    ∧ (s.l2drop line u).ctxs = s.ctxs ∧ (s.l2drop line u).cores = s.cores ∧ (s.l2drop line u).copies = s.copies
    ∧ (s.l2drop line u).mem = s.mem ∧ (s.l2drop line u).meta_ = s.meta_ ∧ (s.l2drop line u).pages = s.pages
    ∧ (s.l2drop line u).regions = s.regions ∧ (s.l2drop line u).written = s.written ∧ (s.l2drop line u).l2w = s.l2w
    ∧ (s.l2drop line u).recalls = s.recalls ∧ (s.l2drop line u).predict = s.predict ∧ (s.l2drop line u).home = s.home
    ∧ (s.l2drop line u).reqs = s.reqs ∧ (s.l2drop line u).expired = s.expired ∧ (s.l2drop line u).walks = s.walks
    ∧ (s.l2drop line u).wcache = s.wcache ∧ (s.l2drop line u).invals = s.invals ∧ (s.l2drop line u).moves = s.moves
    ∧ (s.l2drop line u).epochs = s.epochs ∧ (s.l2drop line u).jobs = s.jobs ∧ (s.l2drop line u).scratchMsgs = s.scratchMsgs
    ∧ (s.l2drop line u).spancfg = s.spancfg ∧ (s.l2drop line u).celltab = s.celltab ∧ (s.l2drop line u).cstate = s.cstate
    ∧ (s.l2drop line u).ppmask = s.ppmask ∧ (s.l2drop line u).pgcmd = s.pgcmd ∧ (s.l2drop line u).migctl = s.migctl
    ∧ (s.l2drop line u).migbpt = s.migbpt ∧ (s.l2drop line u).migfree = s.migfree ∧ (s.l2drop line u).migfht = s.migfht
    ∧ (s.l2drop line u).migrel = s.migrel ∧ (s.l2drop line u).migrht = s.migrht ∧ (s.l2drop line u).evcmd = s.evcmd
    ∧ (s.l2drop line u).ctxcmd = s.ctxcmd ∧ (s.l2drop line u).tlbiva = s.tlbiva ∧ (s.l2drop line u).tlbiOpen = s.tlbiOpen
    ∧ (s.l2drop line u).tlbiRead = s.tlbiRead ∧ (s.l2drop line u).rascnt = s.rascnt ∧ (s.l2drop line u).raslog = s.raslog
    ∧ (s.l2drop line u).rasovf = s.rasovf ∧ (s.l2drop line u).ages = s.ages ∧ (s.l2drop line u).pwrctl = s.pwrctl
    ∧ (s.l2drop line u).evstat = s.evstat ∧ (s.l2drop line u).evdest = s.evdest ∧ (s.l2drop line u).meas = s.meas
    ∧ (s.l2drop line u).attcmd = s.attcmd ∧ (s.l2drop line u).attbuf = s.attbuf ∧ (s.l2drop line u).attrep = s.attrep
    ∧ (s.l2drop line u).devReads = s.devReads ∧ (s.l2drop line u).devDone = s.devDone ∧ (s.l2drop line u).invOut = s.invOut ∧ (s.l2drop line u).eccFix = s.eccFix ∧ (s.l2drop line u).beats = s.beats
    ∧ (s.l2drop line u).suspicions = s.suspicions ∧ (s.l2drop line u).isolated = s.isolated
    ∧ (s.l2drop line u).links = s.links ∧ (s.l2drop line u).routes = s.routes ∧ (s.l2drop line u).ecc = s.ecc
    ∧ (s.l2drop line u).eccBusy = s.eccBusy ∧ (s.l2drop line u).booted = s.booted ∧ (s.l2drop line u).recovery = s.recovery
    ∧ (s.l2drop line u).agenda = s.agenda ∧ (s.l2drop line u).outbox = s.outbox ∧ (s.l2drop line u).seq = s.seq
    ∧ (s.l2drop line u).free = s.free ∧ (s.l2drop line u).turn = s.turn := by
  repeat (first | exact rfl | refine And.intro rfl ?_)
@[simp] theorem memPut_fields (s : State) (line : Nat) (d : LineData) :
    (memPut s line d).cur = s.cur ∧ (memPut s line d).out = s.out ∧ (memPut s line d).iw = s.iw
    ∧ (memPut s line d).now = s.now ∧ (memPut s line d).threads = s.threads ∧ (memPut s line d).teams = s.teams
    ∧ (memPut s line d).clusters = s.clusters ∧ (memPut s line d).grids = s.grids ∧ (memPut s line d).graphs = s.graphs
    ∧ (memPut s line d).queue = s.queue ∧ (memPut s line d).placeFrom = s.placeFrom ∧ (memPut s line d).saved = s.saved
    ∧ (memPut s line d).ctxs = s.ctxs ∧ (memPut s line d).cores = s.cores ∧ (memPut s line d).copies = s.copies
    ∧ (memPut s line d).meta_ = s.meta_ ∧ (memPut s line d).pages = s.pages ∧ (memPut s line d).regions = s.regions
    ∧ (memPut s line d).written = s.written ∧ (memPut s line d).l2 = s.l2 ∧ (memPut s line d).l2w = s.l2w
    ∧ (memPut s line d).recalls = s.recalls ∧ (memPut s line d).predict = s.predict ∧ (memPut s line d).home = s.home
    ∧ (memPut s line d).reqs = s.reqs ∧ (memPut s line d).expired = s.expired ∧ (memPut s line d).walks = s.walks
    ∧ (memPut s line d).wcache = s.wcache ∧ (memPut s line d).invals = s.invals ∧ (memPut s line d).moves = s.moves
    ∧ (memPut s line d).epochs = s.epochs ∧ (memPut s line d).jobs = s.jobs ∧ (memPut s line d).scratchMsgs = s.scratchMsgs
    ∧ (memPut s line d).spancfg = s.spancfg ∧ (memPut s line d).celltab = s.celltab ∧ (memPut s line d).cstate = s.cstate
    ∧ (memPut s line d).ppmask = s.ppmask ∧ (memPut s line d).pgcmd = s.pgcmd ∧ (memPut s line d).migctl = s.migctl
    ∧ (memPut s line d).migbpt = s.migbpt ∧ (memPut s line d).migfree = s.migfree ∧ (memPut s line d).migfht = s.migfht
    ∧ (memPut s line d).migrel = s.migrel ∧ (memPut s line d).migrht = s.migrht ∧ (memPut s line d).evcmd = s.evcmd
    ∧ (memPut s line d).ctxcmd = s.ctxcmd ∧ (memPut s line d).tlbiva = s.tlbiva ∧ (memPut s line d).tlbiOpen = s.tlbiOpen
    ∧ (memPut s line d).tlbiRead = s.tlbiRead ∧ (memPut s line d).rascnt = s.rascnt ∧ (memPut s line d).raslog = s.raslog
    ∧ (memPut s line d).rasovf = s.rasovf ∧ (memPut s line d).ages = s.ages ∧ (memPut s line d).pwrctl = s.pwrctl
    ∧ (memPut s line d).evstat = s.evstat ∧ (memPut s line d).evdest = s.evdest ∧ (memPut s line d).meas = s.meas
    ∧ (memPut s line d).attcmd = s.attcmd ∧ (memPut s line d).attbuf = s.attbuf ∧ (memPut s line d).attrep = s.attrep
    ∧ (memPut s line d).devReads = s.devReads ∧ (memPut s line d).devDone = s.devDone ∧ (memPut s line d).invOut = s.invOut ∧ (memPut s line d).eccFix = s.eccFix ∧ (memPut s line d).beats = s.beats
    ∧ (memPut s line d).suspicions = s.suspicions ∧ (memPut s line d).isolated = s.isolated
    ∧ (memPut s line d).links = s.links ∧ (memPut s line d).routes = s.routes ∧ (memPut s line d).ecc = s.ecc
    ∧ (memPut s line d).eccBusy = s.eccBusy ∧ (memPut s line d).booted = s.booted ∧ (memPut s line d).recovery = s.recovery
    ∧ (memPut s line d).agenda = s.agenda ∧ (memPut s line d).outbox = s.outbox ∧ (memPut s line d).seq = s.seq
    ∧ (memPut s line d).free = s.free ∧ (memPut s line d).turn = s.turn := by
  unfold memPut; repeat (first | exact rfl | refine And.intro rfl ?_)
@[simp] theorem metaPut_fields (s : State) (line : Nat) (w : Dword) :
    (metaPut s line w).cur = s.cur ∧ (metaPut s line w).out = s.out ∧ (metaPut s line w).iw = s.iw
    ∧ (metaPut s line w).now = s.now ∧ (metaPut s line w).threads = s.threads ∧ (metaPut s line w).teams = s.teams
    ∧ (metaPut s line w).clusters = s.clusters ∧ (metaPut s line w).grids = s.grids ∧ (metaPut s line w).graphs = s.graphs
    ∧ (metaPut s line w).queue = s.queue ∧ (metaPut s line w).placeFrom = s.placeFrom ∧ (metaPut s line w).saved = s.saved
    ∧ (metaPut s line w).ctxs = s.ctxs ∧ (metaPut s line w).cores = s.cores ∧ (metaPut s line w).copies = s.copies
    ∧ (metaPut s line w).mem = s.mem ∧ (metaPut s line w).pages = s.pages ∧ (metaPut s line w).regions = s.regions
    ∧ (metaPut s line w).written = s.written ∧ (metaPut s line w).l2 = s.l2 ∧ (metaPut s line w).l2w = s.l2w
    ∧ (metaPut s line w).recalls = s.recalls ∧ (metaPut s line w).predict = s.predict ∧ (metaPut s line w).home = s.home
    ∧ (metaPut s line w).reqs = s.reqs ∧ (metaPut s line w).expired = s.expired ∧ (metaPut s line w).walks = s.walks
    ∧ (metaPut s line w).wcache = s.wcache ∧ (metaPut s line w).invals = s.invals ∧ (metaPut s line w).moves = s.moves
    ∧ (metaPut s line w).epochs = s.epochs ∧ (metaPut s line w).jobs = s.jobs
    ∧ (metaPut s line w).scratchMsgs = s.scratchMsgs ∧ (metaPut s line w).spancfg = s.spancfg
    ∧ (metaPut s line w).celltab = s.celltab ∧ (metaPut s line w).cstate = s.cstate ∧ (metaPut s line w).ppmask = s.ppmask
    ∧ (metaPut s line w).pgcmd = s.pgcmd ∧ (metaPut s line w).migctl = s.migctl ∧ (metaPut s line w).migbpt = s.migbpt
    ∧ (metaPut s line w).migfree = s.migfree ∧ (metaPut s line w).migfht = s.migfht ∧ (metaPut s line w).migrel = s.migrel
    ∧ (metaPut s line w).migrht = s.migrht ∧ (metaPut s line w).evcmd = s.evcmd ∧ (metaPut s line w).ctxcmd = s.ctxcmd
    ∧ (metaPut s line w).tlbiva = s.tlbiva ∧ (metaPut s line w).tlbiOpen = s.tlbiOpen
    ∧ (metaPut s line w).tlbiRead = s.tlbiRead ∧ (metaPut s line w).rascnt = s.rascnt ∧ (metaPut s line w).raslog = s.raslog
    ∧ (metaPut s line w).rasovf = s.rasovf ∧ (metaPut s line w).ages = s.ages ∧ (metaPut s line w).pwrctl = s.pwrctl
    ∧ (metaPut s line w).evstat = s.evstat ∧ (metaPut s line w).evdest = s.evdest ∧ (metaPut s line w).meas = s.meas
    ∧ (metaPut s line w).attcmd = s.attcmd ∧ (metaPut s line w).attbuf = s.attbuf ∧ (metaPut s line w).attrep = s.attrep
    ∧ (metaPut s line w).devReads = s.devReads ∧ (metaPut s line w).devDone = s.devDone ∧ (metaPut s line w).invOut = s.invOut ∧ (metaPut s line w).eccFix = s.eccFix ∧ (metaPut s line w).beats = s.beats
    ∧ (metaPut s line w).suspicions = s.suspicions ∧ (metaPut s line w).isolated = s.isolated
    ∧ (metaPut s line w).links = s.links ∧ (metaPut s line w).routes = s.routes ∧ (metaPut s line w).ecc = s.ecc
    ∧ (metaPut s line w).eccBusy = s.eccBusy ∧ (metaPut s line w).booted = s.booted
    ∧ (metaPut s line w).recovery = s.recovery ∧ (metaPut s line w).agenda = s.agenda ∧ (metaPut s line w).outbox = s.outbox
    ∧ (metaPut s line w).seq = s.seq ∧ (metaPut s line w).free = s.free ∧ (metaPut s line w).turn = s.turn := by
  repeat (first | exact rfl | refine And.intro rfl ?_)
@[simp] theorem hold_fields (s : State) :
    (hold s).out = s.out ∧ (hold s).iw = s.iw ∧ (hold s).now = s.now ∧ (hold s).threads = s.threads
    ∧ (hold s).teams = s.teams ∧ (hold s).clusters = s.clusters ∧ (hold s).grids = s.grids ∧ (hold s).graphs = s.graphs
    ∧ (hold s).queue = s.queue ∧ (hold s).placeFrom = s.placeFrom ∧ (hold s).saved = s.saved ∧ (hold s).ctxs = s.ctxs
    ∧ (hold s).cores = s.cores ∧ (hold s).copies = s.copies ∧ (hold s).mem = s.mem ∧ (hold s).meta_ = s.meta_
    ∧ (hold s).pages = s.pages ∧ (hold s).regions = s.regions ∧ (hold s).written = s.written ∧ (hold s).l2 = s.l2
    ∧ (hold s).l2w = s.l2w ∧ (hold s).recalls = s.recalls ∧ (hold s).predict = s.predict ∧ (hold s).home = s.home
    ∧ (hold s).reqs = s.reqs ∧ (hold s).expired = s.expired ∧ (hold s).walks = s.walks ∧ (hold s).wcache = s.wcache
    ∧ (hold s).invals = s.invals ∧ (hold s).moves = s.moves ∧ (hold s).epochs = s.epochs ∧ (hold s).jobs = s.jobs
    ∧ (hold s).scratchMsgs = s.scratchMsgs ∧ (hold s).spancfg = s.spancfg ∧ (hold s).celltab = s.celltab
    ∧ (hold s).cstate = s.cstate ∧ (hold s).ppmask = s.ppmask ∧ (hold s).pgcmd = s.pgcmd ∧ (hold s).migctl = s.migctl
    ∧ (hold s).migbpt = s.migbpt ∧ (hold s).migfree = s.migfree ∧ (hold s).migfht = s.migfht ∧ (hold s).migrel = s.migrel
    ∧ (hold s).migrht = s.migrht ∧ (hold s).evcmd = s.evcmd ∧ (hold s).ctxcmd = s.ctxcmd ∧ (hold s).tlbiva = s.tlbiva
    ∧ (hold s).tlbiOpen = s.tlbiOpen ∧ (hold s).tlbiRead = s.tlbiRead ∧ (hold s).rascnt = s.rascnt
    ∧ (hold s).raslog = s.raslog ∧ (hold s).rasovf = s.rasovf ∧ (hold s).ages = s.ages ∧ (hold s).pwrctl = s.pwrctl
    ∧ (hold s).evstat = s.evstat ∧ (hold s).evdest = s.evdest ∧ (hold s).meas = s.meas ∧ (hold s).attcmd = s.attcmd
    ∧ (hold s).attbuf = s.attbuf ∧ (hold s).attrep = s.attrep
    ∧ (hold s).devReads = s.devReads ∧ (hold s).devDone = s.devDone ∧ (hold s).invOut = s.invOut ∧ (hold s).eccFix = s.eccFix ∧ (hold s).beats = s.beats ∧ (hold s).suspicions = s.suspicions
    ∧ (hold s).isolated = s.isolated ∧ (hold s).links = s.links ∧ (hold s).routes = s.routes ∧ (hold s).ecc = s.ecc
    ∧ (hold s).eccBusy = s.eccBusy ∧ (hold s).booted = s.booted ∧ (hold s).recovery = s.recovery
    ∧ (hold s).agenda = s.agenda ∧ (hold s).outbox = s.outbox ∧ (hold s).seq = s.seq ∧ (hold s).free = s.free
    ∧ (hold s).turn = s.turn := by
  repeat (first | exact rfl | refine And.intro rfl ?_)
@[simp] theorem block_fields (s : State) (w : Wait) :
    (block s w).out = s.out ∧ (block s w).iw = s.iw ∧ (block s w).now = s.now ∧ (block s w).threads = s.threads
    ∧ (block s w).teams = s.teams ∧ (block s w).clusters = s.clusters ∧ (block s w).grids = s.grids
    ∧ (block s w).graphs = s.graphs ∧ (block s w).queue = s.queue ∧ (block s w).placeFrom = s.placeFrom
    ∧ (block s w).saved = s.saved ∧ (block s w).ctxs = s.ctxs ∧ (block s w).cores = s.cores ∧ (block s w).copies = s.copies
    ∧ (block s w).mem = s.mem ∧ (block s w).meta_ = s.meta_ ∧ (block s w).pages = s.pages ∧ (block s w).regions = s.regions
    ∧ (block s w).written = s.written ∧ (block s w).l2 = s.l2 ∧ (block s w).l2w = s.l2w ∧ (block s w).recalls = s.recalls
    ∧ (block s w).predict = s.predict ∧ (block s w).home = s.home ∧ (block s w).reqs = s.reqs
    ∧ (block s w).expired = s.expired ∧ (block s w).walks = s.walks ∧ (block s w).wcache = s.wcache
    ∧ (block s w).invals = s.invals ∧ (block s w).moves = s.moves ∧ (block s w).epochs = s.epochs
    ∧ (block s w).jobs = s.jobs ∧ (block s w).scratchMsgs = s.scratchMsgs ∧ (block s w).spancfg = s.spancfg
    ∧ (block s w).celltab = s.celltab ∧ (block s w).cstate = s.cstate ∧ (block s w).ppmask = s.ppmask
    ∧ (block s w).pgcmd = s.pgcmd ∧ (block s w).migctl = s.migctl ∧ (block s w).migbpt = s.migbpt
    ∧ (block s w).migfree = s.migfree ∧ (block s w).migfht = s.migfht ∧ (block s w).migrel = s.migrel
    ∧ (block s w).migrht = s.migrht ∧ (block s w).evcmd = s.evcmd ∧ (block s w).ctxcmd = s.ctxcmd
    ∧ (block s w).tlbiva = s.tlbiva ∧ (block s w).tlbiOpen = s.tlbiOpen ∧ (block s w).tlbiRead = s.tlbiRead
    ∧ (block s w).rascnt = s.rascnt ∧ (block s w).raslog = s.raslog ∧ (block s w).rasovf = s.rasovf
    ∧ (block s w).ages = s.ages ∧ (block s w).pwrctl = s.pwrctl ∧ (block s w).evstat = s.evstat
    ∧ (block s w).evdest = s.evdest ∧ (block s w).meas = s.meas ∧ (block s w).attcmd = s.attcmd
    ∧ (block s w).attbuf = s.attbuf ∧ (block s w).attrep = s.attrep
    ∧ (block s w).devReads = s.devReads ∧ (block s w).devDone = s.devDone ∧ (block s w).invOut = s.invOut ∧ (block s w).eccFix = s.eccFix ∧ (block s w).beats = s.beats ∧ (block s w).suspicions = s.suspicions
    ∧ (block s w).isolated = s.isolated ∧ (block s w).links = s.links ∧ (block s w).routes = s.routes
    ∧ (block s w).ecc = s.ecc ∧ (block s w).eccBusy = s.eccBusy ∧ (block s w).booted = s.booted
    ∧ (block s w).recovery = s.recovery ∧ (block s w).agenda = s.agenda ∧ (block s w).outbox = s.outbox
    ∧ (block s w).seq = s.seq ∧ (block s w).free = s.free ∧ (block s w).turn = s.turn := by
  repeat (first | exact rfl | refine And.intro rfl ?_)
@[simp] theorem retire_fields (s r : State) :
    (retire s r).out = r.out ∧ (retire s r).iw = r.iw ∧ (retire s r).now = r.now ∧ (retire s r).threads = r.threads
    ∧ (retire s r).teams = r.teams ∧ (retire s r).clusters = r.clusters ∧ (retire s r).grids = r.grids
    ∧ (retire s r).graphs = r.graphs ∧ (retire s r).queue = r.queue ∧ (retire s r).placeFrom = r.placeFrom
    ∧ (retire s r).saved = r.saved ∧ (retire s r).ctxs = r.ctxs ∧ (retire s r).cores = r.cores
    ∧ (retire s r).copies = r.copies ∧ (retire s r).mem = r.mem ∧ (retire s r).meta_ = r.meta_
    ∧ (retire s r).pages = r.pages ∧ (retire s r).regions = r.regions ∧ (retire s r).written = r.written
    ∧ (retire s r).l2 = r.l2 ∧ (retire s r).l2w = r.l2w ∧ (retire s r).recalls = r.recalls
    ∧ (retire s r).predict = r.predict ∧ (retire s r).home = r.home ∧ (retire s r).reqs = r.reqs
    ∧ (retire s r).expired = r.expired ∧ (retire s r).walks = r.walks ∧ (retire s r).wcache = r.wcache
    ∧ (retire s r).invals = r.invals ∧ (retire s r).moves = r.moves ∧ (retire s r).epochs = r.epochs
    ∧ (retire s r).jobs = r.jobs ∧ (retire s r).scratchMsgs = r.scratchMsgs ∧ (retire s r).spancfg = r.spancfg
    ∧ (retire s r).celltab = r.celltab ∧ (retire s r).cstate = r.cstate ∧ (retire s r).ppmask = r.ppmask
    ∧ (retire s r).pgcmd = r.pgcmd ∧ (retire s r).migctl = r.migctl ∧ (retire s r).migbpt = r.migbpt
    ∧ (retire s r).migfree = r.migfree ∧ (retire s r).migfht = r.migfht ∧ (retire s r).migrel = r.migrel
    ∧ (retire s r).migrht = r.migrht ∧ (retire s r).evcmd = r.evcmd ∧ (retire s r).ctxcmd = r.ctxcmd
    ∧ (retire s r).tlbiva = r.tlbiva ∧ (retire s r).tlbiOpen = r.tlbiOpen ∧ (retire s r).tlbiRead = r.tlbiRead
    ∧ (retire s r).rascnt = r.rascnt ∧ (retire s r).raslog = r.raslog ∧ (retire s r).rasovf = r.rasovf
    ∧ (retire s r).ages = r.ages ∧ (retire s r).pwrctl = r.pwrctl ∧ (retire s r).evstat = r.evstat
    ∧ (retire s r).evdest = r.evdest ∧ (retire s r).meas = r.meas ∧ (retire s r).attcmd = r.attcmd
    ∧ (retire s r).attbuf = r.attbuf ∧ (retire s r).attrep = r.attrep
    ∧ (retire s r).devReads = r.devReads ∧ (retire s r).devDone = r.devDone ∧ (retire s r).invOut = r.invOut ∧ (retire s r).eccFix = r.eccFix ∧ (retire s r).beats = r.beats ∧ (retire s r).suspicions = r.suspicions
    ∧ (retire s r).isolated = r.isolated ∧ (retire s r).links = r.links ∧ (retire s r).routes = r.routes
    ∧ (retire s r).ecc = r.ecc ∧ (retire s r).eccBusy = r.eccBusy ∧ (retire s r).booted = r.booted
    ∧ (retire s r).recovery = r.recovery ∧ (retire s r).agenda = r.agenda ∧ (retire s r).outbox = r.outbox
    ∧ (retire s r).seq = r.seq ∧ (retire s r).free = r.free ∧ (retire s r).turn = r.turn := by
  repeat (first | exact rfl | refine And.intro rfl ?_)
@[simp] theorem branch_fields (s r : State) (a : Dword) :
    (branch s r a).out = r.out ∧ (branch s r a).iw = r.iw ∧ (branch s r a).now = r.now ∧ (branch s r a).threads = r.threads
    ∧ (branch s r a).teams = r.teams ∧ (branch s r a).clusters = r.clusters ∧ (branch s r a).grids = r.grids
    ∧ (branch s r a).graphs = r.graphs ∧ (branch s r a).queue = r.queue ∧ (branch s r a).placeFrom = r.placeFrom
    ∧ (branch s r a).saved = r.saved ∧ (branch s r a).ctxs = r.ctxs ∧ (branch s r a).cores = r.cores
    ∧ (branch s r a).copies = r.copies ∧ (branch s r a).mem = r.mem ∧ (branch s r a).meta_ = r.meta_
    ∧ (branch s r a).pages = r.pages ∧ (branch s r a).regions = r.regions ∧ (branch s r a).written = r.written
    ∧ (branch s r a).l2 = r.l2 ∧ (branch s r a).l2w = r.l2w ∧ (branch s r a).recalls = r.recalls
    ∧ (branch s r a).predict = r.predict ∧ (branch s r a).home = r.home ∧ (branch s r a).reqs = r.reqs
    ∧ (branch s r a).expired = r.expired ∧ (branch s r a).walks = r.walks ∧ (branch s r a).wcache = r.wcache
    ∧ (branch s r a).invals = r.invals ∧ (branch s r a).moves = r.moves ∧ (branch s r a).epochs = r.epochs
    ∧ (branch s r a).jobs = r.jobs ∧ (branch s r a).scratchMsgs = r.scratchMsgs ∧ (branch s r a).spancfg = r.spancfg
    ∧ (branch s r a).celltab = r.celltab ∧ (branch s r a).cstate = r.cstate ∧ (branch s r a).ppmask = r.ppmask
    ∧ (branch s r a).pgcmd = r.pgcmd ∧ (branch s r a).migctl = r.migctl ∧ (branch s r a).migbpt = r.migbpt
    ∧ (branch s r a).migfree = r.migfree ∧ (branch s r a).migfht = r.migfht ∧ (branch s r a).migrel = r.migrel
    ∧ (branch s r a).migrht = r.migrht ∧ (branch s r a).evcmd = r.evcmd ∧ (branch s r a).ctxcmd = r.ctxcmd
    ∧ (branch s r a).tlbiva = r.tlbiva ∧ (branch s r a).tlbiOpen = r.tlbiOpen ∧ (branch s r a).tlbiRead = r.tlbiRead
    ∧ (branch s r a).rascnt = r.rascnt ∧ (branch s r a).raslog = r.raslog ∧ (branch s r a).rasovf = r.rasovf
    ∧ (branch s r a).ages = r.ages ∧ (branch s r a).pwrctl = r.pwrctl ∧ (branch s r a).evstat = r.evstat
    ∧ (branch s r a).evdest = r.evdest ∧ (branch s r a).meas = r.meas ∧ (branch s r a).attcmd = r.attcmd
    ∧ (branch s r a).attbuf = r.attbuf ∧ (branch s r a).attrep = r.attrep
    ∧ (branch s r a).devReads = r.devReads ∧ (branch s r a).devDone = r.devDone ∧ (branch s r a).invOut = r.invOut ∧ (branch s r a).eccFix = r.eccFix ∧ (branch s r a).beats = r.beats ∧ (branch s r a).suspicions = r.suspicions
    ∧ (branch s r a).isolated = r.isolated ∧ (branch s r a).links = r.links ∧ (branch s r a).routes = r.routes
    ∧ (branch s r a).ecc = r.ecc ∧ (branch s r a).eccBusy = r.eccBusy ∧ (branch s r a).booted = r.booted
    ∧ (branch s r a).recovery = r.recovery ∧ (branch s r a).agenda = r.agenda ∧ (branch s r a).outbox = r.outbox
    ∧ (branch s r a).seq = r.seq ∧ (branch s r a).free = r.free ∧ (branch s r a).turn = r.turn := by
  repeat (first | exact rfl | refine And.intro rfl ?_)
@[simp] theorem State.post_fields (s : State) (d : Nat) (i : Instr) :
    (s.post d i).cur = s.cur ∧ (s.post d i).out = s.out ∧ (s.post d i).iw = s.iw ∧ (s.post d i).now = s.now
    ∧ (s.post d i).threads = s.threads ∧ (s.post d i).teams = s.teams ∧ (s.post d i).clusters = s.clusters
    ∧ (s.post d i).grids = s.grids ∧ (s.post d i).graphs = s.graphs ∧ (s.post d i).queue = s.queue
    ∧ (s.post d i).placeFrom = s.placeFrom ∧ (s.post d i).saved = s.saved ∧ (s.post d i).ctxs = s.ctxs
    ∧ (s.post d i).cores = s.cores ∧ (s.post d i).copies = s.copies ∧ (s.post d i).mem = s.mem
    ∧ (s.post d i).meta_ = s.meta_ ∧ (s.post d i).pages = s.pages ∧ (s.post d i).regions = s.regions
    ∧ (s.post d i).written = s.written ∧ (s.post d i).l2 = s.l2 ∧ (s.post d i).l2w = s.l2w
    ∧ (s.post d i).recalls = s.recalls ∧ (s.post d i).predict = s.predict ∧ (s.post d i).home = s.home
    ∧ (s.post d i).reqs = s.reqs ∧ (s.post d i).expired = s.expired ∧ (s.post d i).walks = s.walks
    ∧ (s.post d i).wcache = s.wcache ∧ (s.post d i).invals = s.invals ∧ (s.post d i).moves = s.moves
    ∧ (s.post d i).epochs = s.epochs ∧ (s.post d i).jobs = s.jobs ∧ (s.post d i).scratchMsgs = s.scratchMsgs
    ∧ (s.post d i).spancfg = s.spancfg ∧ (s.post d i).celltab = s.celltab ∧ (s.post d i).cstate = s.cstate
    ∧ (s.post d i).ppmask = s.ppmask ∧ (s.post d i).pgcmd = s.pgcmd ∧ (s.post d i).migctl = s.migctl
    ∧ (s.post d i).migbpt = s.migbpt ∧ (s.post d i).migfree = s.migfree ∧ (s.post d i).migfht = s.migfht
    ∧ (s.post d i).migrel = s.migrel ∧ (s.post d i).migrht = s.migrht ∧ (s.post d i).evcmd = s.evcmd
    ∧ (s.post d i).ctxcmd = s.ctxcmd ∧ (s.post d i).tlbiva = s.tlbiva ∧ (s.post d i).tlbiOpen = s.tlbiOpen
    ∧ (s.post d i).tlbiRead = s.tlbiRead ∧ (s.post d i).rascnt = s.rascnt ∧ (s.post d i).raslog = s.raslog
    ∧ (s.post d i).rasovf = s.rasovf ∧ (s.post d i).ages = s.ages ∧ (s.post d i).pwrctl = s.pwrctl
    ∧ (s.post d i).evstat = s.evstat ∧ (s.post d i).evdest = s.evdest ∧ (s.post d i).meas = s.meas
    ∧ (s.post d i).attcmd = s.attcmd ∧ (s.post d i).attbuf = s.attbuf ∧ (s.post d i).attrep = s.attrep
    ∧ (s.post d i).devReads = s.devReads ∧ (s.post d i).devDone = s.devDone ∧ (s.post d i).invOut = s.invOut ∧ (s.post d i).eccFix = s.eccFix ∧ (s.post d i).beats = s.beats
    ∧ (s.post d i).suspicions = s.suspicions ∧ (s.post d i).isolated = s.isolated ∧ (s.post d i).links = s.links
    ∧ (s.post d i).routes = s.routes ∧ (s.post d i).ecc = s.ecc ∧ (s.post d i).eccBusy = s.eccBusy
    ∧ (s.post d i).booted = s.booted ∧ (s.post d i).recovery = s.recovery ∧ (s.post d i).outbox = s.outbox
    ∧ (s.post d i).seq = s.seq ∧ (s.post d i).free = s.free ∧ (s.post d i).turn = s.turn := by
  unfold State.post; split <;> repeat (first | exact rfl | refine And.intro rfl ?_)
@[simp] theorem State.postFirst_fields (s : State) (i : Instr) :
    (s.postFirst i).cur = s.cur ∧ (s.postFirst i).out = s.out ∧ (s.postFirst i).iw = s.iw ∧ (s.postFirst i).now = s.now
    ∧ (s.postFirst i).threads = s.threads ∧ (s.postFirst i).teams = s.teams ∧ (s.postFirst i).clusters = s.clusters
    ∧ (s.postFirst i).grids = s.grids ∧ (s.postFirst i).graphs = s.graphs ∧ (s.postFirst i).queue = s.queue
    ∧ (s.postFirst i).placeFrom = s.placeFrom ∧ (s.postFirst i).saved = s.saved ∧ (s.postFirst i).ctxs = s.ctxs
    ∧ (s.postFirst i).cores = s.cores ∧ (s.postFirst i).copies = s.copies ∧ (s.postFirst i).mem = s.mem
    ∧ (s.postFirst i).meta_ = s.meta_ ∧ (s.postFirst i).pages = s.pages ∧ (s.postFirst i).regions = s.regions
    ∧ (s.postFirst i).written = s.written ∧ (s.postFirst i).l2 = s.l2 ∧ (s.postFirst i).l2w = s.l2w
    ∧ (s.postFirst i).recalls = s.recalls ∧ (s.postFirst i).predict = s.predict ∧ (s.postFirst i).home = s.home
    ∧ (s.postFirst i).reqs = s.reqs ∧ (s.postFirst i).expired = s.expired ∧ (s.postFirst i).walks = s.walks
    ∧ (s.postFirst i).wcache = s.wcache ∧ (s.postFirst i).invals = s.invals ∧ (s.postFirst i).moves = s.moves
    ∧ (s.postFirst i).epochs = s.epochs ∧ (s.postFirst i).jobs = s.jobs ∧ (s.postFirst i).scratchMsgs = s.scratchMsgs
    ∧ (s.postFirst i).spancfg = s.spancfg ∧ (s.postFirst i).celltab = s.celltab ∧ (s.postFirst i).cstate = s.cstate
    ∧ (s.postFirst i).ppmask = s.ppmask ∧ (s.postFirst i).pgcmd = s.pgcmd ∧ (s.postFirst i).migctl = s.migctl
    ∧ (s.postFirst i).migbpt = s.migbpt ∧ (s.postFirst i).migfree = s.migfree ∧ (s.postFirst i).migfht = s.migfht
    ∧ (s.postFirst i).migrel = s.migrel ∧ (s.postFirst i).migrht = s.migrht ∧ (s.postFirst i).evcmd = s.evcmd
    ∧ (s.postFirst i).ctxcmd = s.ctxcmd ∧ (s.postFirst i).tlbiva = s.tlbiva ∧ (s.postFirst i).tlbiOpen = s.tlbiOpen
    ∧ (s.postFirst i).tlbiRead = s.tlbiRead ∧ (s.postFirst i).rascnt = s.rascnt ∧ (s.postFirst i).raslog = s.raslog
    ∧ (s.postFirst i).rasovf = s.rasovf ∧ (s.postFirst i).ages = s.ages ∧ (s.postFirst i).pwrctl = s.pwrctl
    ∧ (s.postFirst i).evstat = s.evstat ∧ (s.postFirst i).evdest = s.evdest ∧ (s.postFirst i).meas = s.meas
    ∧ (s.postFirst i).attcmd = s.attcmd ∧ (s.postFirst i).attbuf = s.attbuf ∧ (s.postFirst i).attrep = s.attrep
    ∧ (s.postFirst i).devReads = s.devReads ∧ (s.postFirst i).devDone = s.devDone ∧ (s.postFirst i).invOut = s.invOut ∧ (s.postFirst i).eccFix = s.eccFix ∧ (s.postFirst i).beats = s.beats
    ∧ (s.postFirst i).suspicions = s.suspicions ∧ (s.postFirst i).isolated = s.isolated ∧ (s.postFirst i).links = s.links
    ∧ (s.postFirst i).routes = s.routes ∧ (s.postFirst i).ecc = s.ecc ∧ (s.postFirst i).eccBusy = s.eccBusy
    ∧ (s.postFirst i).booted = s.booted ∧ (s.postFirst i).recovery = s.recovery ∧ (s.postFirst i).outbox = s.outbox
    ∧ (s.postFirst i).seq = s.seq ∧ (s.postFirst i).free = s.free ∧ (s.postFirst i).turn = s.turn := by
  unfold State.postFirst; repeat (first | exact rfl | refine And.intro rfl ?_)

/-! ### What the updates write -/

@[simp] theorem State.modCur_cur (s : State) (f : Thread → Thread) : (s.modCur f).cur = f s.cur := rfl
@[simp] theorem State.modCore_cores (s : State) (c : Nat) (f : Core → Core) : (s.modCore c f).cores = modAt s.cores c f := rfl
@[simp] theorem State.modCtx_ctxs (s : State) (k : Nat) (f : Ctx → Ctx) : (s.modCtx k f).ctxs = modAt s.ctxs k f := rfl
/-- A step's first event is the one that was posted so. -/
@[simp] theorem State.postFirst_agenda (s : State) (i : Instr) : ∃ d, (s.postFirst i).agenda = (d, i) :: s.agenda := ⟨_, rfl⟩
@[simp] theorem State.say_outbox (s : State) (m : OutMsg) : (s.say m).outbox = m :: s.outbox := rfl
@[simp] theorem State.fresh_fst (s : State) : s.fresh.1 = s.seq := rfl
@[simp] theorem State.fresh_seq (s : State) : s.fresh.2.seq = s.seq + 1 := rfl
@[simp] theorem State.checkOut_cur (s : State) (t : Thread) : (s.checkOut t).cur = t := rfl
@[simp] theorem State.checkOut_out (s : State) (t : Thread) : (s.checkOut t).out = true := rfl
@[simp] theorem State.wake_cur (s : State) : s.wake.cur = { s.cur with stall := false } := rfl
@[simp] theorem hold_cur (s : State) : (hold s).cur = { s.cur with stall := true } := rfl
@[simp] theorem block_cur (s : State) (w : Wait) : (block s w).cur = { s.cur with wait := w, stall := true } := rfl
/-- Another core, and the core that is changed. -/
theorem State.core_modCore_ne (s : State) {c k : Nat} (f : Core → Core) (h : k ≠ c) : (s.modCore c f).core k = s.core k :=
  getD_modAt_ne _ _ _ h
theorem State.core_modCore (s : State) {c : Nat} (f : Core → Core) (h : c < s.cores.length) : (s.modCore c f).core c = f (s.core c) :=
  getD_modAt_self _ _ _ h
theorem State.ctx_modCtx_ne (s : State) {c k : Nat} (f : Ctx → Ctx) (h : k ≠ c) : (s.modCtx c f).ctx k = s.ctx k :=
  getD_modAt_ne _ _ _ h
theorem State.ctx_modCtx (s : State) {c : Nat} (f : Ctx → Ctx) (h : c < s.ctxs.length) : (s.modCtx c f).ctx c = f (s.ctx c) :=
  getD_modAt_self _ _ _ h
/-- Finding a team after a change of a team: the change keeps the numbers of the teams. -/
theorem State.team_modTeam_ne (s : State) {k j : Nat} (f : Team → Team) (hf : ∀ m : Team, (f m).id = m.id) (h : j ≠ k) :
    (s.modTeam k f).team? j = s.team? j := by
  show List.find? _ (List.map _ _) = _
  rw [List.find?_map]
  have : ((fun t : Team => t.id == j) ∘ fun t : Team => if t.id == k then f t else t) = fun t => t.id == j := by
    funext t
    show ((if t.id == k then f t else t).id == j) = _
    split <;> simp [hf]
  rw [this]
  show Option.map _ (s.team? j) = _
  cases hm : s.team? j with
  | none => rfl
  | some m =>
    have hj : m.id = j := by simpa using List.find?_some hm
    have hk : m.id ≠ k := by rw [hj]; exact h
    simp [hk]
theorem State.team_modTeam (s : State) {k : Nat} (f : Team → Team) (hf : ∀ m : Team, (f m).id = m.id) :
    (s.modTeam k f).team? k = (s.team? k).map f := by
  show List.find? _ (List.map _ _) = _
  rw [List.find?_map]
  have : ((fun t : Team => t.id == k) ∘ fun t : Team => if t.id == k then f t else t) = fun t => t.id == k := by
    funext t
    show ((if t.id == k then f t else t).id == k) = _
    split <;> simp [hf]
  rw [this]
  show Option.map _ (s.team? k) = _
  cases hm : s.team? k with
  | none => rfl
  | some m =>
    have hj : m.id = k := by simpa using List.find?_some hm
    simp [hj]
/-- Marks of time are not where the next thing is looked up: what is due is what was due, and the new event. -/
theorem agendaAdd_mem (d : Nat) (i : Instr) (l : List (Nat × Instr)) (e : Nat × Instr) :
    e ∈ agendaAdd d i l ↔ e = (d, i) ∨ e ∈ l := by
  induction l with
  | nil => simp [agendaAdd]
  | cons x r ih =>
    obtain ⟨k, j⟩ := x
    rw [agendaAdd]
    split
    · simp only [List.mem_cons, ih]; constructor <;> (rintro (h | h | h) <;> simp [h])
    · simp only [List.mem_cons]
theorem State.post_agenda (s : State) (d : Nat) (i : Instr) (hp : isPoll i = false) (hl : isLook i = false) :
    (s.post d i).agenda = agendaAdd d i s.agenda := by
  simp [State.post, hp, hl]

/-! ### Updates of a thread -/

@[simp] theorem Thread.putReg_fields (t : Thread) (n : Nat) (x : SVal) :
    (t.putReg n x).uid = t.uid ∧ (t.putReg n x).stream = t.stream ∧ (t.putReg n x).cluster = t.cluster
    ∧ (t.putReg n x).team = t.team ∧ (t.putReg n x).gid = t.gid ∧ (t.putReg n x).core = t.core ∧ (t.putReg n x).pc = t.pc
    ∧ (t.putReg n x).mode = t.mode ∧ (t.putReg n x).vregs = t.vregs ∧ (t.putReg n x).allot = t.allot
    ∧ (t.putReg n x).wbase = t.wbase ∧ (t.putReg n x).preds = t.preds ∧ (t.putReg n x).launched = t.launched
    ∧ (t.putReg n x).live = t.live ∧ (t.putReg n x).cc = t.cc ∧ (t.putReg n x).rm = t.rm ∧ (t.putReg n x).sig = t.sig
    ∧ (t.putReg n x).savedSig = t.savedSig ∧ (t.putReg n x).lct = t.lct ∧ (t.putReg n x).mfw = t.mfw
    ∧ (t.putReg n x).mpert = t.mpert ∧ (t.putReg n x).trapcode = t.trapcode ∧ (t.putReg n x).trappc = t.trappc
    ∧ (t.putReg n x).trapaddr = t.trapaddr ∧ (t.putReg n x).trapmask = t.trapmask ∧ (t.putReg n x).trapnpc = t.trapnpc
    ∧ (t.putReg n x).trapLog = t.trapLog ∧ (t.putReg n x).trapDrop = t.trapDrop ∧ (t.putReg n x).fltpend = t.fltpend
    ∧ (t.putReg n x).fltinsn = t.fltinsn ∧ (t.putReg n x).lselv = t.lselv ∧ (t.putReg n x).trapEntry = t.trapEntry
    ∧ (t.putReg n x).log = t.log ∧ (t.putReg n x).nextEntry = t.nextEntry ∧ (t.putReg n x).fetched = t.fetched
    ∧ (t.putReg n x).fetching = t.fetching ∧ (t.putReg n x).wait = t.wait ∧ (t.putReg n x).acq = t.acq
    ∧ (t.putReg n x).invs = t.invs ∧ (t.putReg n x).active = t.active ∧ (t.putReg n x).resident = t.resident
    ∧ (t.putReg n x).activeAt = t.activeAt ∧ (t.putReg n x).issuedAt = t.issuedAt ∧ (t.putReg n x).readyAt = t.readyAt ∧ (t.putReg n x).heldAt = t.heldAt
    ∧ (t.putReg n x).stall = t.stall ∧ (t.putReg n x).idle = t.idle ∧ (t.putReg n x).ending = t.ending := by
  unfold Thread.putReg; split <;> repeat (first | exact rfl | refine And.intro rfl ?_)
@[simp] theorem Thread.putLanes_fields (t : Thread) (n : Nat) (m : LaneMask) (f : Nat → Lane) :
    (t.putLanes n m f).uid = t.uid ∧ (t.putLanes n m f).stream = t.stream ∧ (t.putLanes n m f).cluster = t.cluster
    ∧ (t.putLanes n m f).team = t.team ∧ (t.putLanes n m f).gid = t.gid ∧ (t.putLanes n m f).core = t.core
    ∧ (t.putLanes n m f).pc = t.pc ∧ (t.putLanes n m f).mode = t.mode ∧ (t.putLanes n m f).sregs = t.sregs
    ∧ (t.putLanes n m f).banked = t.banked ∧ (t.putLanes n m f).allot = t.allot ∧ (t.putLanes n m f).wbase = t.wbase
    ∧ (t.putLanes n m f).preds = t.preds ∧ (t.putLanes n m f).launched = t.launched ∧ (t.putLanes n m f).live = t.live
    ∧ (t.putLanes n m f).cc = t.cc ∧ (t.putLanes n m f).rm = t.rm ∧ (t.putLanes n m f).sig = t.sig
    ∧ (t.putLanes n m f).savedSig = t.savedSig ∧ (t.putLanes n m f).lct = t.lct ∧ (t.putLanes n m f).mfw = t.mfw
    ∧ (t.putLanes n m f).mpert = t.mpert ∧ (t.putLanes n m f).trapcode = t.trapcode ∧ (t.putLanes n m f).trappc = t.trappc
    ∧ (t.putLanes n m f).trapaddr = t.trapaddr ∧ (t.putLanes n m f).trapmask = t.trapmask
    ∧ (t.putLanes n m f).trapnpc = t.trapnpc ∧ (t.putLanes n m f).trapLog = t.trapLog
    ∧ (t.putLanes n m f).trapDrop = t.trapDrop ∧ (t.putLanes n m f).fltpend = t.fltpend
    ∧ (t.putLanes n m f).fltinsn = t.fltinsn ∧ (t.putLanes n m f).lselv = t.lselv
    ∧ (t.putLanes n m f).trapEntry = t.trapEntry ∧ (t.putLanes n m f).log = t.log
    ∧ (t.putLanes n m f).nextEntry = t.nextEntry ∧ (t.putLanes n m f).fetched = t.fetched
    ∧ (t.putLanes n m f).fetching = t.fetching ∧ (t.putLanes n m f).wait = t.wait ∧ (t.putLanes n m f).acq = t.acq
    ∧ (t.putLanes n m f).invs = t.invs ∧ (t.putLanes n m f).active = t.active ∧ (t.putLanes n m f).resident = t.resident
    ∧ (t.putLanes n m f).activeAt = t.activeAt ∧ (t.putLanes n m f).issuedAt = t.issuedAt
    ∧ (t.putLanes n m f).readyAt = t.readyAt ∧ (t.putLanes n m f).heldAt = t.heldAt ∧ (t.putLanes n m f).stall = t.stall ∧ (t.putLanes n m f).idle = t.idle
    ∧ (t.putLanes n m f).ending = t.ending := by
  repeat (first | exact rfl | refine And.intro rfl ?_)
@[simp] theorem Thread.putV_fields (t : Thread) (r : VReg) (f : Nat → Lane) :
    (t.putV r f).uid = t.uid ∧ (t.putV r f).stream = t.stream ∧ (t.putV r f).cluster = t.cluster
    ∧ (t.putV r f).team = t.team ∧ (t.putV r f).gid = t.gid ∧ (t.putV r f).core = t.core ∧ (t.putV r f).pc = t.pc
    ∧ (t.putV r f).mode = t.mode ∧ (t.putV r f).sregs = t.sregs ∧ (t.putV r f).banked = t.banked
    ∧ (t.putV r f).allot = t.allot ∧ (t.putV r f).wbase = t.wbase ∧ (t.putV r f).preds = t.preds
    ∧ (t.putV r f).launched = t.launched ∧ (t.putV r f).live = t.live ∧ (t.putV r f).cc = t.cc ∧ (t.putV r f).rm = t.rm
    ∧ (t.putV r f).sig = t.sig ∧ (t.putV r f).savedSig = t.savedSig ∧ (t.putV r f).lct = t.lct ∧ (t.putV r f).mfw = t.mfw
    ∧ (t.putV r f).mpert = t.mpert ∧ (t.putV r f).trapcode = t.trapcode ∧ (t.putV r f).trappc = t.trappc
    ∧ (t.putV r f).trapaddr = t.trapaddr ∧ (t.putV r f).trapmask = t.trapmask ∧ (t.putV r f).trapnpc = t.trapnpc
    ∧ (t.putV r f).trapLog = t.trapLog ∧ (t.putV r f).trapDrop = t.trapDrop ∧ (t.putV r f).fltpend = t.fltpend
    ∧ (t.putV r f).fltinsn = t.fltinsn ∧ (t.putV r f).lselv = t.lselv ∧ (t.putV r f).trapEntry = t.trapEntry
    ∧ (t.putV r f).log = t.log ∧ (t.putV r f).nextEntry = t.nextEntry ∧ (t.putV r f).fetched = t.fetched
    ∧ (t.putV r f).fetching = t.fetching ∧ (t.putV r f).wait = t.wait ∧ (t.putV r f).acq = t.acq
    ∧ (t.putV r f).invs = t.invs ∧ (t.putV r f).active = t.active ∧ (t.putV r f).resident = t.resident
    ∧ (t.putV r f).activeAt = t.activeAt ∧ (t.putV r f).issuedAt = t.issuedAt ∧ (t.putV r f).readyAt = t.readyAt ∧ (t.putV r f).heldAt = t.heldAt
    ∧ (t.putV r f).stall = t.stall ∧ (t.putV r f).idle = t.idle ∧ (t.putV r f).ending = t.ending := by
  repeat (first | exact rfl | refine And.intro rfl ?_)
@[simp] theorem Thread.putV2_fields (t : Thread) (r : VReg) (f : Nat → SVal) :
    (t.putV2 r f).uid = t.uid ∧ (t.putV2 r f).stream = t.stream ∧ (t.putV2 r f).cluster = t.cluster
    ∧ (t.putV2 r f).team = t.team ∧ (t.putV2 r f).gid = t.gid ∧ (t.putV2 r f).core = t.core ∧ (t.putV2 r f).pc = t.pc
    ∧ (t.putV2 r f).mode = t.mode ∧ (t.putV2 r f).sregs = t.sregs ∧ (t.putV2 r f).banked = t.banked
    ∧ (t.putV2 r f).allot = t.allot ∧ (t.putV2 r f).wbase = t.wbase ∧ (t.putV2 r f).preds = t.preds
    ∧ (t.putV2 r f).launched = t.launched ∧ (t.putV2 r f).live = t.live ∧ (t.putV2 r f).cc = t.cc ∧ (t.putV2 r f).rm = t.rm
    ∧ (t.putV2 r f).sig = t.sig ∧ (t.putV2 r f).savedSig = t.savedSig ∧ (t.putV2 r f).lct = t.lct
    ∧ (t.putV2 r f).mfw = t.mfw ∧ (t.putV2 r f).mpert = t.mpert ∧ (t.putV2 r f).trapcode = t.trapcode
    ∧ (t.putV2 r f).trappc = t.trappc ∧ (t.putV2 r f).trapaddr = t.trapaddr ∧ (t.putV2 r f).trapmask = t.trapmask
    ∧ (t.putV2 r f).trapnpc = t.trapnpc ∧ (t.putV2 r f).trapLog = t.trapLog ∧ (t.putV2 r f).trapDrop = t.trapDrop
    ∧ (t.putV2 r f).fltpend = t.fltpend ∧ (t.putV2 r f).fltinsn = t.fltinsn ∧ (t.putV2 r f).lselv = t.lselv
    ∧ (t.putV2 r f).trapEntry = t.trapEntry ∧ (t.putV2 r f).log = t.log ∧ (t.putV2 r f).nextEntry = t.nextEntry
    ∧ (t.putV2 r f).fetched = t.fetched ∧ (t.putV2 r f).fetching = t.fetching ∧ (t.putV2 r f).wait = t.wait
    ∧ (t.putV2 r f).acq = t.acq ∧ (t.putV2 r f).invs = t.invs ∧ (t.putV2 r f).active = t.active
    ∧ (t.putV2 r f).resident = t.resident ∧ (t.putV2 r f).activeAt = t.activeAt ∧ (t.putV2 r f).issuedAt = t.issuedAt
    ∧ (t.putV2 r f).readyAt = t.readyAt ∧ (t.putV2 r f).heldAt = t.heldAt ∧ (t.putV2 r f).stall = t.stall ∧ (t.putV2 r f).idle = t.idle
    ∧ (t.putV2 r f).ending = t.ending := by
  repeat (first | exact rfl | refine And.intro rfl ?_)
@[simp] theorem Thread.putPM_fields (t : Thread) (r : PReg) (m : LaneMask) (f : Nat → Bool × Bool) :
    (t.putPM r m f).uid = t.uid ∧ (t.putPM r m f).stream = t.stream ∧ (t.putPM r m f).cluster = t.cluster
    ∧ (t.putPM r m f).team = t.team ∧ (t.putPM r m f).gid = t.gid ∧ (t.putPM r m f).core = t.core
    ∧ (t.putPM r m f).pc = t.pc ∧ (t.putPM r m f).mode = t.mode ∧ (t.putPM r m f).sregs = t.sregs
    ∧ (t.putPM r m f).banked = t.banked ∧ (t.putPM r m f).vregs = t.vregs ∧ (t.putPM r m f).allot = t.allot
    ∧ (t.putPM r m f).wbase = t.wbase ∧ (t.putPM r m f).launched = t.launched ∧ (t.putPM r m f).live = t.live
    ∧ (t.putPM r m f).cc = t.cc ∧ (t.putPM r m f).rm = t.rm ∧ (t.putPM r m f).sig = t.sig
    ∧ (t.putPM r m f).savedSig = t.savedSig ∧ (t.putPM r m f).lct = t.lct ∧ (t.putPM r m f).mfw = t.mfw
    ∧ (t.putPM r m f).mpert = t.mpert ∧ (t.putPM r m f).trapcode = t.trapcode ∧ (t.putPM r m f).trappc = t.trappc
    ∧ (t.putPM r m f).trapaddr = t.trapaddr ∧ (t.putPM r m f).trapmask = t.trapmask ∧ (t.putPM r m f).trapnpc = t.trapnpc
    ∧ (t.putPM r m f).trapLog = t.trapLog ∧ (t.putPM r m f).trapDrop = t.trapDrop ∧ (t.putPM r m f).fltpend = t.fltpend
    ∧ (t.putPM r m f).fltinsn = t.fltinsn ∧ (t.putPM r m f).lselv = t.lselv ∧ (t.putPM r m f).trapEntry = t.trapEntry
    ∧ (t.putPM r m f).log = t.log ∧ (t.putPM r m f).nextEntry = t.nextEntry ∧ (t.putPM r m f).fetched = t.fetched
    ∧ (t.putPM r m f).fetching = t.fetching ∧ (t.putPM r m f).wait = t.wait ∧ (t.putPM r m f).acq = t.acq
    ∧ (t.putPM r m f).invs = t.invs ∧ (t.putPM r m f).active = t.active ∧ (t.putPM r m f).resident = t.resident
    ∧ (t.putPM r m f).activeAt = t.activeAt ∧ (t.putPM r m f).issuedAt = t.issuedAt ∧ (t.putPM r m f).readyAt = t.readyAt ∧ (t.putPM r m f).heldAt = t.heldAt
    ∧ (t.putPM r m f).stall = t.stall ∧ (t.putPM r m f).idle = t.idle ∧ (t.putPM r m f).ending = t.ending := by
  repeat (first | exact rfl | refine And.intro rfl ?_)
@[simp] theorem Thread.setMask_fields (t : Thread) (m : LaneMask) :
    (t.setMask m).uid = t.uid ∧ (t.setMask m).stream = t.stream ∧ (t.setMask m).cluster = t.cluster
    ∧ (t.setMask m).team = t.team ∧ (t.setMask m).gid = t.gid ∧ (t.setMask m).core = t.core ∧ (t.setMask m).pc = t.pc
    ∧ (t.setMask m).mode = t.mode ∧ (t.setMask m).banked = t.banked ∧ (t.setMask m).vregs = t.vregs
    ∧ (t.setMask m).allot = t.allot ∧ (t.setMask m).wbase = t.wbase ∧ (t.setMask m).preds = t.preds
    ∧ (t.setMask m).launched = t.launched ∧ (t.setMask m).live = t.live ∧ (t.setMask m).rm = t.rm
    ∧ (t.setMask m).sig = t.sig ∧ (t.setMask m).savedSig = t.savedSig ∧ (t.setMask m).lct = t.lct
    ∧ (t.setMask m).mfw = t.mfw ∧ (t.setMask m).mpert = t.mpert ∧ (t.setMask m).trapcode = t.trapcode
    ∧ (t.setMask m).trappc = t.trappc ∧ (t.setMask m).trapaddr = t.trapaddr ∧ (t.setMask m).trapmask = t.trapmask
    ∧ (t.setMask m).trapnpc = t.trapnpc ∧ (t.setMask m).trapLog = t.trapLog ∧ (t.setMask m).trapDrop = t.trapDrop
    ∧ (t.setMask m).fltpend = t.fltpend ∧ (t.setMask m).fltinsn = t.fltinsn ∧ (t.setMask m).lselv = t.lselv
    ∧ (t.setMask m).trapEntry = t.trapEntry ∧ (t.setMask m).log = t.log ∧ (t.setMask m).nextEntry = t.nextEntry
    ∧ (t.setMask m).fetched = t.fetched ∧ (t.setMask m).fetching = t.fetching ∧ (t.setMask m).wait = t.wait
    ∧ (t.setMask m).acq = t.acq ∧ (t.setMask m).invs = t.invs ∧ (t.setMask m).active = t.active
    ∧ (t.setMask m).resident = t.resident ∧ (t.setMask m).activeAt = t.activeAt ∧ (t.setMask m).issuedAt = t.issuedAt
    ∧ (t.setMask m).readyAt = t.readyAt ∧ (t.setMask m).heldAt = t.heldAt ∧ (t.setMask m).stall = t.stall ∧ (t.setMask m).idle = t.idle
    ∧ (t.setMask m).ending = t.ending := by
  repeat (first | exact rfl | refine And.intro rfl ?_)

end Sys2Proof.Machine
end

