-- ==== Sys2Proof/Tests/Slice0.lean ====
section
/-! SUPPORT. Tests: ill-formed terms, a word of every instruction, worked figures of the spec, and for every statement with
hypotheses a state that meets them. -/
namespace Sys2Proof.Tests
open Sys2Proof Sys2Proof.Machine
set_option maxRecDepth 100000
set_option Elab.async false

/-! ### States -/

/-- A scalar that is not poisoned, and one that is. -/
def num (x : Nat) : SVal := ⟨BitVec.ofNat 64 x, false⟩
def bad : SVal := ⟨0, true⟩
/-- A group of 96 lanes, all live and active, with 96 vector registers. -/
def group : Thread := { Thread.blank with
  uid := 1, team := 2, allot := 96, launched := BitVec.allOnes 96, live := BitVec.allOnes 96, pc := 0x10000
  vregs := List.replicate 96 (List.replicate 96 Lane.zero)
  sregs := List.replicate 29 SVal.zero ++ List.replicate 3 (num 0xFFFFFFFF) }
/-- The group in the trap handler, and a stream. -/
def handler : Thread := { group with mode := .sup, lselv := 95 }
def stream : Thread := newStream 9 2 0 0x20000 false false 0
/-- Scalars of a thread. -/
def put (l : List (Nat × SVal)) (t : Thread) : Thread :=
  { t with sregs := l.foldl (fun r x => setAt r x.1 x.2) t.sregs, banked := l.foldl (fun r x => setAt r x.1 x.2) t.banked }
/-- Its mask. -/
def lanes (m : LaneMask) (t : Thread) : Thread := t.setMask m
/-- The team, cluster and grid of the threads above. -/
def team : Team := ⟨2, 4, 3, 0, 0, 0, 0, 1, [], List.replicate 16 Watermark.idle, ActTable.zero, none, none, none, false⟩
def grid : Grid := ⟨4, 0, 0, placedRec, false, none, [], .running, 1, false, 0, [], none, [], none⟩
/-- A package that has booted, with that grid alone and the thread checked out. -/
def pkg (t : Thread) : State := { State.reset with
  cur := t, out := true, booted := true, iw := 0x12345678, now := 1000
  teams := [team], clusters := [⟨3, 4, 0, [(0, 2)], false⟩], grids := [grid]
  ctxs := { Ctx.unknown with status := .loaded, trapvec := 0x4000 } :: List.replicate 63 Ctx.unknown }
/-- The package with a thread of each mode. -/
def inMode : Mode → State
  | .user => pkg group
  | .sup => pkg handler
  | .seq => pkg stream

/-! ### Ill-formed terms (07 R184) -/

theorem test_wf_event : Instr.wf .user .raspop = false := by decide +kernel
theorem test_wf_read_only : Instr.wf .user (.swr .now 3) = false ∧ Instr.wf .sup (.swrp .ctxnum 3) = false := by decide +kernel
theorem test_wf_pair : Instr.wf .user (.vdadd 1 2 (.v 4)) = false ∧ Instr.wf .user (.vdadd 2 2 (.v 4)) = true := by decide +kernel
theorem test_wf_quad : Instr.wf .user (.vldq .normal 2 (.base 1 (.v 4))) = false := by decide +kernel
theorem test_wf_run : Instr.wf .user (.wait 30 1 1 false) = false ∧ Instr.wf .user (.wait 28 1 1 false) = true := by decide +kernel
theorem test_wf_mode : Instr.wf .user (.halt 1) = false ∧ Instr.wf .sup (.sys) = false ∧ Instr.wf .sup (.halt 1) = true := by
  decide +kernel
theorem test_wf_stream : Instr.wf .seq (.srd (.v 1) .now) = false ∧ Instr.wf .seq (.srd (.s 1) .now) = true := by decide +kernel

/-! ### A word of every instruction (07 R174 to R180 and the tables of 09 to 15)

The words are put together from the fields of the encodings: major and function, then each operand in its place. -/

abbrev Row := Mode × Word × Instr
/-- Each word decodes, in its mode, to the instruction that it stands for, and is its encoding. -/
noncomputable def readBack (rows : List Row) : Bool := rows.all fun r =>
  (match decode r.1 r.2.1 with
    | .ok i => decide (i = r.2.2)
    | .error _ => false) && encode r.2.2 == r.2.1 && r.2.2.wf r.1

noncomputable def wordsCtrl : List Row := [
  (.user, 0x00000000, .nop), (.user, 0x00200000, .exit), (.user, 0x00400000, .lexit), (.user, 0x00600000, .yield),
  (.user, 0x00800000, .sys), (.user, 0x00A00000, .brk), (.user, 0x00C00000, .sigrst), (.user, 0x00E00000, .fetchb),
  (.user, 0x01028000, .win 10), (.user, 0x01393600, .wait 4 12 0 false), (.user, 0x01400000, .waitc),
  (.user, 0x017C7180, .launch 17 3), (.user, 0x01810012, .srd (.v 4) .ccr), (.user, 0x01BC0012, .swr .ccr 16),
  (.user, 0x01C03300, .jr 6), (.user, 0x01F87100, .jlr 1 2), (.user, 0x02000000, .pinon), (.user, 0x02200000, .pinoff),
  (.user, 0x544EFCFE, .br .ntmo 982270), (.user, 0x5C7F3155, .bl .ntmo 4141397), (.user, 0x980EF7B1, .sigchk 980913)]
theorem test_decode_Ctrl : readBack wordsCtrl = true := by decide +kernel
noncomputable def wordsSalu : List Row := [
  (.user, 0x081B76E2, .sadd 13 13 2), (.user, 0x0839F171, .ssub 7 2 17), (.user, 0x085B70F2, .smul 13 1 18),
  (.user, 0x0878F3F4, .smulh 3 7 20), (.user, 0x089D3961, .smulhu 20 18 1), (.user, 0x08BCB96C, .sdiv 18 18 12),
  (.user, 0x08D873E1, .sdivu 1 7 1), (.user, 0x08FC7269, .srem 17 4 9), (.user, 0x091B7271, .sremu 13 4 17),
  (.user, 0x0938F969, .sand 3 18 9), (.user, 0x095C7AE5, .sor 17 21 5), (.user, 0x0978F972, .sxor 3 18 18),
  (.user, 0x099D336B, .sandn 20 6 11), (.user, 0x09B8F8F6, .sshl 3 17 22), (.user, 0x09D8B961, .sshr 2 18 1),
  (.user, 0x09FCF36F, .ssra 19 6 15), (.user, 0x0A1D78ED, .smin 21 17 13), (.user, 0x0A3AB772, .smax 10 14 18),
  (.user, 0x0A5BB5E9, .sminu 14 11 9), (.user, 0x0A79F2F6, .smaxu 7 5 22), (.user, 0x0A99F100, .sclz 7 2),
  (.user, 0x0ABCB480, .sctz 18 9), (.user, 0x0ADC3780, .spopc 16 15), (.user, 0x0AFABB80, .sbrev 10 23),
  (.user, 0x0B1BB4F3, .sbfe 14 9 19), (.user, 0x0B38B1F0, .sbfeu 2 3 16), (.user, 0x0B5B72EA, .sbfi 13 5 10),
  (.user, 0x0B60326F, .scmp 4 15), (.user, 0x0B9B70F5, .ssel 13 1 21), (.user, 0x162E3414, .saddi 2 17 5140),
  (.user, 0x1EAED669, .sandi 10 22 5737), (.user, 0x273DFD32, .sori 19 15 7474), (.user, 0x2E2C5146, .sxori 2 2 4422),
  (.user, 0x36FEC008, .sshli 15 22 8), (.user, 0x361EE067, .sshri 1 23 39), (.user, 0x374E40B9, .ssrai 20 18 57),
  (.user, 0x369EC0F1, .sroti 9 22 49), (.user, 0x380EB635, .scmpi 21 5685), (.user, 0x460EC635, .slui 0 968245),
  (.user, 0x4EB560A6, .slhi 11 352422)]
theorem test_decode_Salu : readBack wordsSalu = true := by decide +kernel
noncomputable def wordsSmem : List Row := [
  (.user, 0x661CC24C, .sldb 1 6 588), (.user, 0x664EE5FB, .sldh 4 23 507), (.user, 0x66CD8BF8, .sldw 12 12 1016),
  (.user, 0x662CAF97, .sldd 2 5 919), (.user, 0x66CE3239, .sstb 12 17 569), (.user, 0x664DB63A, .ssth 4 13 570),
  (.user, 0x676DBADE, .sstw 22 13 734), (.user, 0x675D9DD8, .sstd 21 12 472)]
theorem test_decode_Smem : readBack wordsSmem = true := by decide +kernel
noncomputable def wordsVmem : List Row := [
  (.user, 0x6E040400, .vldb .nl 16 (.pair 8)), (.user, 0x6E240400, .vldh .nl 16 (.pair 8)),
  (.user, 0x6E470400, .vldw .nl 28 (.pair 8)), (.user, 0x6E720400, .vldd .nl 72 (.pair 8)),
  (.user, 0x6E890400, .vldq .nl 36 (.pair 8)), (.user, 0x720D3286, .vstb .nl 52 (.base 5 (.v 6))),
  (.user, 0x72333286, .vsth .nl 76 (.base 5 (.v 6))), (.user, 0x72443286, .vstw .nl 16 (.base 5 (.v 6))),
  (.user, 0x72703286, .vstd .nl 64 (.base 5 (.v 6))), (.user, 0x72943286, .vstq .nl 80 (.base 5 (.v 6))),
  (.user, 0x78010400, .atomAddW 4 (.pair 8)), (.user, 0x782E0400, .atomAddD 56 (.pair 8)),
  (.user, 0x78550400, .atomMinW 84 (.pair 8)), (.user, 0x78710400, .atomMaxW 68 (.pair 8)),
  (.user, 0x788C0400, .atomMinuW 48 (.pair 8)), (.user, 0x78AC0400, .atomMaxuW 48 (.pair 8)),
  (.user, 0x78CC0400, .atomMinD 48 (.pair 8)), (.user, 0x78EC0400, .atomMaxD 48 (.pair 8)),
  (.user, 0x79030400, .atomAndW 12 (.pair 8)), (.user, 0x792F0400, .atomOrW 60 (.pair 8)),
  (.user, 0x79540400, .atomXorW 80 (.pair 8)), (.user, 0x796C0400, .atomAndD 48 (.pair 8)),
  (.user, 0x79810400, .atomOrD 4 (.pair 8)), (.user, 0x79A60400, .atomXorD 24 (.pair 8)),
  (.user, 0x79C20400, .atomSwapW 8 (.pair 8)), (.user, 0x79E60400, .atomSwapD 24 (.pair 8)),
  (.user, 0x7A0E0400, .atomCasW 56 (.pair 8)), (.user, 0x7A250400, .atomCasD 20 (.pair 8)),
  (.user, 0x7A430400, .atomFaddF32 12 (.pair 8)), (.user, 0x7A6A0400, .atomFaddF64 40 (.pair 8)),
  (.user, 0x7A930400, .atomFminF32 76 (.pair 8)), (.user, 0x7AA10400, .atomFmaxF32 4 (.pair 8))]
theorem test_decode_Vmem : readBack wordsVmem = true := by decide +kernel
noncomputable def wordsSpm : List Row := [
  (.user, 0x80033071, .spldb 12 0 (.s 17)), (.user, 0x802335E2, .spldh 12 11 (.s 2)),
  (.user, 0x804639D0, .spldw 24 19 (.v 80)), (.user, 0x806835EF, .spldd 32 11 (.s 15)),
  (.user, 0x808331EE, .spldq 12 3 (.s 14)), (.user, 0x80AF3790, .spstb 60 15 (.v 16)),
  (.user, 0x80C33BA0, .spsth 12 23 (.v 32)), (.user, 0x80EF3B00, .spstw 60 22 (.v 0)),
  (.user, 0x81063844, .spstd 24 16 (.v 68)), (.user, 0x81203850, .spstq 0 16 (.v 80)),
  (.user, 0x81423B70, .spatomAdd 8 22 (.s 16)), (.user, 0x816B329C, .spatomMin 44 5 (.v 28)),
  (.user, 0x819138EA, .spatomMax 68 17 (.s 10)), (.user, 0x81B433E6, .spatomSwap 80 7 (.s 6)),
  (.user, 0x81C73667, .spatomCas 28 12 (.s 7)), (.user, 0x81E63800, .spatomFadd 24 16 (.v 0))]
theorem test_decode_Spm : readBack wordsSpm = true := by decide +kernel
noncomputable def wordsMemctl : List Row := [
  (.user, 0x88000000, .fenceCore), (.user, 0x88200000, .fencePkg), (.user, 0x88400000, .fenceSpan),
  (.user, 0x88603067, .cflush 0 (some 7)), (.user, 0x88803467, .cinv 8 (some 7)), (.user, 0x88A037E7, .pref 15 (some 7)),
  (.user, 0x88C03467, .icinv 8 (some 7)), (.user, 0x88E63B6B, .rput 24 22 (.s 11)),
  (.user, 0x890E3BEB, .rputf 56 23 (.s 11)), (.user, 0x892233BC, .rget 8 7 (.v 60)),
  (.user, 0x8946354C, .ratom 24 10 (.v 76)), (.user, 0x897CF000, .satomAdd 19 0), (.user, 0x899BFA00, .satomSwap 15 20),
  (.user, 0x89BAFA62, .satomCas 11 20 2), (.user, 0x89DD7180, .satomMin 21 3), (.user, 0x89FB3B00, .satomMax 12 22),
  (.user, 0x8A19B780, .satomOr 6 15), (.user, 0x8A397680, .satomAnd 5 13)]
theorem test_decode_Memctl : readBack wordsMemctl = true := by decide +kernel
noncomputable def wordsVialu : List Row := [
  (.user, 0x90141430, .vadd 80 40 (.v 48)), (.user, 0x902E1862, .vsub 56 48 (.s 2)),
  (.user, 0x90450A60, .vmul 20 20 (.s 0)), (.user, 0x90642474, .vmulh 16 72 (.s 20)),
  (.user, 0x9084266F, .vmulhu 16 76 (.s 15)), (.user, 0x90B51644, .vmad 84 44 (.v 68)),
  (.user, 0x90C40050, .vand 16 0 (.v 80)), (.user, 0x90E32064, .vor 12 64 (.s 4)), (.user, 0x910D0C66, .vxor 52 24 (.s 6)),
  (.user, 0x91201040, .vandn 0 32 (.v 64)), (.user, 0x91472444, .vshl 28 72 (.v 68)),
  (.user, 0x916D082C, .vshr 52 16 (.v 44)), (.user, 0x918E2A70, .vsra 56 84 (.s 16)),
  (.user, 0x91AD2010, .vmin 52 64 (.v 16)), (.user, 0x91D02038, .vminu 64 64 (.v 56)),
  (.user, 0x91E52610, .vmax 20 76 (.v 16)), (.user, 0x9205080C, .vmaxu 20 16 (.v 12)), (.user, 0x92310200, .vabs 68 4),
  (.user, 0x924A2A00, .vneg 40 84), (.user, 0x92702000, .vclz 64 64), (.user, 0x92911E00, .vpopc 68 60),
  (.user, 0x92A32200, .vbrev 12 68), (.user, 0x92C10E04, .vbfe 4 28 (.v 4)), (.user, 0x92E32000, .vbfeu 12 64 (.v 0)),
  (.user, 0x93021C40, .vbfi 8 56 (.v 64)), (.user, 0x93332020, .vadd64 76 64 (.v 32)),
  (.user, 0x934E206F, .vsub64 56 64 (.s 15)), (.user, 0x93700E68, .vmul64 64 28 (.s 8)),
  (.user, 0x93910C64, .vshl64 68 24 (.s 4)), (.user, 0x93AD0628, .vshr64 52 12 (.v 40)),
  (.user, 0x93C22A08, .vsra64 8 84 (.v 8)), (.user, 0x93E62A0C, .vdp4 24 84 (.v 12)),
  (.user, 0x94042C6B, .vdp4u 16 88 (.s 11)), (.user, 0x94240800, .vmov 16 (.v 16)), (.user, 0xA1C30313, .vmovi 28 197395)]
theorem test_decode_Vialu : readBack wordsVialu = true := by decide +kernel
noncomputable def wordsFpA : List Row := [
  (.user, 0xA80C1E54, .vfadd 48 60 (.v 84)), (.user, 0xA8270A70, .vfsub 28 20 (.s 16)),
  (.user, 0xA84C142C, .vfmul 48 40 (.v 44)), (.user, 0xA86A0460, .vfma 40 8 (.s 0)),
  (.user, 0xA88A2200, .vfms 40 68 (.v 0)), (.user, 0xA8AC1469, .vfnma 48 40 (.s 9)),
  (.user, 0xA8D0041C, .vfmin 64 8 (.v 28)), (.user, 0xA8E30404, .vfmax 12 8 (.v 4)), (.user, 0xA9051000, .vfabs 20 32),
  (.user, 0xA9241A00, .vfneg 16 52), (.user, 0xA9551044, .vfcpsgn 84 32 (.v 68)),
  (.user, 0xA9702428, .vfscale 64 72 (.v 40)), (.user, 0xA9821000, .vfrndn 8 32), (.user, 0xA9A12C00, .vfrndz 4 88),
  (.user, 0xA9C51A00, .vfrndu 20 52), (.user, 0xA9E21000, .vfrndd 8 32), (.user, 0xAA002820, .vfdiv 0 80 (.v 32)),
  (.user, 0xAA222600, .vfsqrt 8 76), (.user, 0xAA470400, .vfrcp 28 8), (.user, 0xAA680600, .vfrsq 32 12),
  (.user, 0xB00E0044, .vdadd 56 0 (.v 68)), (.user, 0xB02D1061, .vdsub 52 32 (.s 1)),
  (.user, 0xB0502C0C, .vdmul 64 88 (.v 12)), (.user, 0xB0651018, .vdfma 20 32 (.v 24)),
  (.user, 0xB0892818, .vdfms 36 80 (.v 24)), (.user, 0xB0A91C65, .vdfnma 36 56 (.s 5)),
  (.user, 0xB0C81668, .vdmin 32 44 (.s 8)), (.user, 0xB0E10040, .vdmax 4 0 (.v 64)), (.user, 0xB1110C00, .vdabs 68 24),
  (.user, 0xB1301E00, .vdneg 64 60), (.user, 0xB1471C50, .vdscale 28 56 (.v 80)), (.user, 0xB16D2A00, .vdrndn 52 84),
  (.user, 0xB18F2200, .vdrndz 60 68), (.user, 0xB1AC2018, .vddiv 48 64 (.v 24)), (.user, 0xB1C71400, .vdsqrt 28 40),
  (.user, 0xB1E62C00, .vdrcp 24 88), (.user, 0xB2140800, .vdrsq 80 16), (.user, 0xBC0C1664, .vhadd .hf 48 44 (.s 4)),
  (.user, 0xBC200468, .vhsub .hf 0 8 (.s 8)), (.user, 0xBC4D0A54, .vhmul .hf 52 20 (.v 84))]
theorem test_decode_FpA : readBack wordsFpA = true := by decide +kernel
noncomputable def wordsFpB : List Row := [
  (.user, 0xBC6C2069, .vhfma .hf 48 64 (.s 9)), (.user, 0xBC930E61, .vhmin .hf 76 28 (.s 1)),
  (.user, 0xBCAE0A38, .vhmax .hf 56 20 (.v 56)), (.user, 0xBCC01028, .vhdot2 .hf 0 32 (.v 40))]
theorem test_decode_FpB : readBack wordsFpB = true := by decide +kernel
noncomputable def wordsCvt : List Row := [
  (.user, 0xC0111400, .vcvtF64F32 68 40), (.user, 0xC0270200, .vcvtF32F64 28 4),
  (.user, 0xC0490C00, .vcvtBf16F32 36 24 (.v 0)), (.user, 0xC06A1800, .vcvtF32Bf16 40 48),
  (.user, 0xC0821E50, .vcvtF16F32 8 60 (.v 80)), (.user, 0xC0A60E00, .vcvtF32F16 24 28),
  (.user, 0xC0D00008, .vcvtE4m3F32 64 0 (.v 8)), (.user, 0xC0E4186C, .vcvtE5m2F32 16 48 (.s 12)),
  (.user, 0xC1001200, .vcvtF32E4m3 0 36), (.user, 0xC1292800, .vcvtF32E5m2 36 80), (.user, 0xC1470400, .vcvtS32F32 28 8),
  (.user, 0xC1722000, .vcvtU32F32 72 64), (.user, 0xC1842A00, .vcvtF32S32 16 84), (.user, 0xC1B62600, .vcvtF32U32 88 76),
  (.user, 0xC1CC1400, .vcvtS64F64 48 40), (.user, 0xC1EF0800, .vcvtF64S64 60 16), (.user, 0xC2092600, .vcvtS32F64 36 76),
  (.user, 0xC2340800, .vcvtF64S32 80 16), (.user, 0xC2412C00, .vfclass 4 88), (.user, 0xC2702800, .vdclass 64 80),
  (.user, 0xC28D2C00, .vexp2 52 88), (.user, 0xC2B00800, .vlog2 64 16), (.user, 0xC2D02000, .vsin 64 64),
  (.user, 0xC2F20000, .vcos 72 0), (.user, 0xC3152400, .teval 84 72), (.user, 0xC3202C75, .tld 88 21)]
theorem test_decode_Cvt : readBack wordsCvt = true := by decide +kernel
noncomputable def wordsVcmp : List Row := [
  (.user, 0xC8038410, .vicmpEq 14 8 (.v 16)), (.user, 0xC825C638, .vicmpNe 23 12 (.v 56)),
  (.user, 0xC840E844, .vicmpLt 3 80 (.v 68)), (.user, 0xC863DE38, .vicmpLe 15 60 (.v 56)),
  (.user, 0xC8812062, .vicmpLtu 4 64 (.s 2)), (.user, 0xC8A11E08, .vicmpLeu 4 60 (.v 8)),
  (.user, 0xC8C40E66, .vicmp64Eq 16 28 (.s 6)), (.user, 0xC8E3A86F, .vicmp64Lt 14 80 (.s 15)),
  (.user, 0xC9060454, .vicmp64Ltu 24 8 (.v 84)), (.user, 0xC9248274, .vfcmpEq 18 4 (.s 20)),
  (.user, 0xC943046A, .vfcmpNe 12 8 (.s 10)), (.user, 0xC9642869, .vfcmpLt 16 80 (.s 9)),
  (.user, 0xC982003C, .vfcmpLe 8 0 (.v 60)), (.user, 0xC9A46A18, .vfcmpUn 17 84 (.v 24)),
  (.user, 0xC9C7D269, .vdcmpEq 31 36 (.s 9)), (.user, 0xC9E75C0C, .vdcmpNe 29 56 (.v 12)),
  (.user, 0xCA03126F, .vdcmpLt 12 36 (.s 15)), (.user, 0xCA205240, .vdcmpLe 1 36 (.v 64)),
  (.user, 0xCA471018, .vdcmpUn 28 32 (.v 24)), (.user, 0xCA610289, .pand 4 5 9), (.user, 0xCA840B88, .por 16 23 8),
  (.user, 0xCAA44397, .pxor 17 7 23), (.user, 0xCAC38F9F, .pandn 14 31 31), (.user, 0xCAE64080, .pnot 25 1),
  (.user, 0xCB029E00, .pset 10 (.v 60)), (.user, 0xCB350E00, .psave 84 28), (.user, 0xCB465200, .prest 25 36),
  (.user, 0xCB7DC480, .ballot 23 9), (.user, 0xCB800D00, .mandp 26), (.user, 0xCBA00B00, .mandnp 22),
  (.user, 0xCBC00C00, .msetp 24), (.user, 0xCBFA8380, .pcnt 10 7)]
theorem test_decode_Vcmp : readBack wordsVcmp = true := by decide +kernel
noncomputable def wordsXlane : List Row := [
  (.user, 0xD00A0028, .vperm 40 0 (.v 40)), (.user, 0xD02C0666, .vshflx 48 12 (.s 6)),
  (.user, 0xD0560069, .vshflu 88 0 (.s 9)), (.user, 0xD0681630, .vshfld 32 44 (.v 48)),
  (.user, 0xD092046B, .vbcast 72 8 11), (.user, 0xD0AD1000, .vredAdd 52 32), (.user, 0xD0C11000, .vredMin 4 32),
  (.user, 0xD0E30200, .vredMax 12 4), (.user, 0xD1151200, .vredAnd 84 36), (.user, 0xD1340800, .vredOr 80 16),
  (.user, 0xD1471000, .vredXor 28 32), (.user, 0xD16D2000, .vfredAdd 52 64), (.user, 0xD18A0C00, .vscanAdd 40 24),
  (.user, 0xD1AB0000, .vlane 44), (.user, 0xEB8E146E, .vsel 14 56 40 (.s 14)), (.user, 0xEEE40067, .vpmov 27 16 (.s 7))]
theorem test_decode_Xlane : readBack wordsXlane = true := by decide +kernel
noncomputable def wordsCopy : List Row := [
  (.user, 0xD83B7A44, .cpy 13 1 (.s 20) (.v 68)), (.user, 0xDC0038E6, .swinit 17 6), (.user, 0xDC3DF100, .bara 23 2 false),
  (.user, 0xDC5DF680, .bard 23 13), (.user, 0xDC7B8004, .wmrd 14 4), (.user, 0xDC800009, .wmclr 9),
  (.user, 0xDCA0000F, .wmabort 15)]
theorem test_decode_Copy : readBack wordsCopy = true := by decide +kernel
noncomputable def wordsMatrix : List Row := [
  (.user, 0xE0003080, .mfmt 1), (.user, 0xE0204107, .mma 1 2 7), (.user, 0xE040C284, .mmaL 3 5 4),
  (.user, 0xE0608000, .mzero 2), (.user, 0xE0880374, .acrd 32 2 true 20), (.user, 0xE0A70371, .acwr 28 2 true 17),
  (.user, 0xE0D50363, .tbw 84 6 3), (.user, 0xE0E50162, .tbr 20 2 2), (.user, 0xE1003370, .mpert 6 16),
  (.user, 0xE1200000, .msync), (.user, 0xE1403780, .seqgo 15)]
theorem test_decode_Matrix : readBack wordsMatrix = true := by decide +kernel
noncomputable def wordsUint : List Row := [
  (.user, 0xF0003165, .uisend 2 5), (.user, 0xF0203571, .uisendw 10 17), (.user, 0xF0400000, .uiret),
  (.user, 0xF078806A, .uiack 2 10), (.user, 0xF099C000, .uipoll 7)]
theorem test_decode_Uint : readBack wordsUint = true := by decide +kernel
noncomputable def wordsPriv : List Row := [
  (.sup, 0xF8000000, .trapret), (.sup, 0xF83AC005, .srdp 11 (.ncw 5)), (.sup, 0xF85A0005, .swrp (.ncw 5) 8),
  (.sup, 0xF8603900, .lsel 18), (.sup, 0xF8998000, .lrdv 6 0), (.sup, 0xF8BDDA00, .lwrv 23 52),
  (.sup, 0xF8DB0D00, .lrdp 12 26), (.sup, 0xF8FDC680, .lwrp 23 13), (.sup, 0xF9003668, .tlbinv 12 8),
  (.sup, 0xF9200000, .tlbsync), (.sup, 0xF9400000, .freplay), (.sup, 0xF9600000, .fdrop), (.sup, 0xF9803500, .halt 10)]
theorem test_decode_Priv : readBack wordsPriv = true := by decide +kernel

/-- The words that the worked examples of 09 to 15 give. -/
noncomputable def wordsExamples : List Row := [
  (.user, 0xD8398510, .cpy 6 1 (.v 10) (.v 16)), (.seq, 0xD819B570, .cpy 6 0 (.s 10) (.s 16)), (.user, 0xC0424089, .vcvtBf16F32 9 1 (.v 9)), (.user, 0xC32003E9, .tld 7 9),
  (.user, 0xC3018280, .teval 6 5), (.user, 0xC84100E5, .vicmpLt 4 1 (.s 5)), (.user, 0x68403202, .vldw .normal 0 (.base 4 (.v 2))),
  (.user, 0x7061B202, .vstd .normal 6 (.base 4 (.v 2))), (.user, 0x6E400400, .vldw .nl 0 (.pair 8)),
  (.user, 0x88E13602, .rput 4 12 (.v 2)), (.user, 0x88C0356B, .icinv 10 (some 11))]
theorem test_decode_examples : readBack wordsExamples = true := by decide +kernel

/-! ### Every word may issue -/

theorem witness_ready_Ctrl : ∀ r ∈ wordsCtrl, ready r.2.2 (inMode r.1) := by unfold ready; decide +kernel
theorem witness_ready_Salu : ∀ r ∈ wordsSalu, ready r.2.2 (inMode r.1) := by unfold ready; decide +kernel
theorem witness_ready_Smem : ∀ r ∈ wordsSmem, ready r.2.2 (inMode r.1) := by unfold ready; decide +kernel
theorem witness_ready_Vmem : ∀ r ∈ wordsVmem, ready r.2.2 (inMode r.1) := by unfold ready; decide +kernel
theorem witness_ready_Spm : ∀ r ∈ wordsSpm, ready r.2.2 (inMode r.1) := by unfold ready; decide +kernel
theorem witness_ready_Memctl : ∀ r ∈ wordsMemctl, ready r.2.2 (inMode r.1) := by unfold ready; decide +kernel
theorem witness_ready_Vialu : ∀ r ∈ wordsVialu, ready r.2.2 (inMode r.1) := by unfold ready; decide +kernel
theorem witness_ready_Fp : ∀ r ∈ wordsFpA ++ wordsFpB, ready r.2.2 (inMode r.1) := by unfold ready; decide +kernel
theorem witness_ready_Cvt : ∀ r ∈ wordsCvt, ready r.2.2 (inMode r.1) := by unfold ready; decide +kernel
theorem witness_ready_Vcmp : ∀ r ∈ wordsVcmp, ready r.2.2 (inMode r.1) := by unfold ready; decide +kernel
theorem witness_ready_Xlane : ∀ r ∈ wordsXlane, ready r.2.2 (inMode r.1) := by unfold ready; decide +kernel
theorem witness_ready_Copy : ∀ r ∈ wordsCopy, ready r.2.2 (inMode r.1) := by unfold ready; decide +kernel
theorem witness_ready_Matrix : ∀ r ∈ wordsMatrix, ready r.2.2 (inMode r.1) := by unfold ready; decide +kernel
theorem witness_ready_Uint : ∀ r ∈ wordsUint, ready r.2.2 (inMode r.1) := by unfold ready; decide +kernel
theorem witness_ready_Priv : ∀ r ∈ wordsPriv, ready r.2.2 (inMode r.1) := by unfold ready; decide +kernel

/-! ### Worked figures: one step each, calculated by hand from the rules named -/

/-- The state after an instruction of a thread. -/
noncomputable def after (i : Instr) (t : Thread) : State :=
  match exec i (pkg t) with
  | .next s => s
  | _ => pkg t
noncomputable def scalar (i : Instr) (t : Thread) (r : SReg) : SVal := (after i t).cur.getS r
/-- A register of a vector, given lane by lane. -/
def vec (l : List (Nat × (Nat → Lane))) (t : Thread) : Thread :=
  { t with vregs := l.foldl (fun r x => setAt r x.1 ((List.range 96).map x.2)) t.vregs }
def word (x : Nat) : Nat → Lane := fun _ => ⟨BitVec.ofNat 32 x, false⟩
/-- Lane 7 of v1 after an instruction on v2 and v3 (and the old v1). -/
noncomputable def lane7 (i : Instr) (x y z : Nat) : Word :=
  ((after i (vec [(2, word x), (3, word y), (1, word z)] group)).cur.getV 1 7).v

-- scalars: 09 R215 to R219
theorem test_sadd_wraps : scalar (.sadd 1 2 3) (put [(2, num (2 ^ 64 - 1)), (3, num 1)] group) 1 = num 0 := by decide +kernel
theorem test_sadd_poison : scalar (.sadd 1 2 3) (put [(2, bad), (3, num 1)] group) 1 = bad := by decide +kernel
theorem test_smulh : scalar (.smulh 1 2 3) (put [(2, num (2 ^ 64 - 1)), (3, num (2 ^ 64 - 1))] group) 1 = num 0 := by decide +kernel
theorem test_smulhu : scalar (.smulhu 1 2 3) (put [(2, num (2 ^ 64 - 1)), (3, num (2 ^ 64 - 1))] group) 1 = num (2 ^ 64 - 2) := by
  decide +kernel
theorem test_sdiv_zero : scalar (.sdiv 1 2 3) (put [(2, num 5)] group) 1 = num (2 ^ 64 - 1) := by decide +kernel
theorem test_sdiv_least : scalar (.sdiv 1 2 3) (put [(2, num (2 ^ 63)), (3, num (2 ^ 64 - 1))] group) 1 = num (2 ^ 63) := by
  decide +kernel
theorem test_srem_sign : scalar (.srem 1 2 3) (put [(2, num (2 ^ 64 - 7)), (3, num 2)] group) 1 = num (2 ^ 64 - 1) := by
  decide +kernel
theorem test_ssra : scalar (.ssra 1 2 3) (put [(2, num (2 ^ 63)), (3, num 127)] group) 1 = num (2 ^ 64 - 1) := by decide +kernel
theorem test_sbfe : scalar (.sbfe 1 2 3) (put [(2, num 0xF0), (3, num 0x404)] group) 1 = num (2 ^ 64 - 1) := by decide +kernel
theorem test_sbfi : scalar (.sbfi 1 2 3) (put [(1, num 0xFFFF), (2, num 0x5), (3, num 0x404)] group) 1 = num 0xFF5F := by
  decide +kernel
theorem test_sroti : scalar (.sroti 1 2 1) (put [(2, num 1)] group) 1 = num (2 ^ 63) := by decide +kernel
theorem test_slhi : scalar (.slhi 10 0x40000) (put [(10, num 3)] group) 10 = num 0x340000 := by decide +kernel
theorem test_slui_negative : scalar (.slui 10 0xFFFFF) group 10 = num (2 ^ 64 - 1) := by decide +kernel
-- 0 - 1: negative, no carry out of A + NOT Y + 1
theorem test_scmp : let c := (after (.scmp 2 3) (put [(3, num 1)] group)).cur.cc
    c.z = false ∧ c.n = true ∧ c.c = false ∧ c.v = false ∧ c.holds .ltu = true ∧ c.holds .lt = true := by decide +kernel
-- control: 06 R155, 09 R221, R228, 15 R341
theorem test_branch_back : (after (.br .al 0x3FFFFF) group).cur.pc = 0xFFFC := by decide +kernel
theorem test_mask_write : let t := (after (.slui 31 1) group).cur
    t.mask = BitVec.ofNat 96 (2 ^ 65 - 1) ∧ t.cc.mz = false ∧ t.cc.mf = false := by decide +kernel
theorem test_jump_misaligned : let t := (after (.jr 4) (put [(4, num 0x20002)] group)).cur
    t.trapcode = BitVec.ofNat 64 MISALIGNED ∧ t.trapaddr = 0x20002 ∧ t.trappc = 0x10000 ∧ t.pc = 0x4000 ∧ t.mode = .sup := by
  decide +kernel
theorem test_sys : let t := (after .sys group).cur
    t.trapcode = 0x13 ∧ t.trappc = 0x10004 ∧ t.trapmask = [0xFFFFFFFF, 0xFFFFFFFF, 0xFFFFFFFF] ∧ t.mode = .sup := by decide +kernel
theorem test_privileged : (after (.halt 1) group).cur.trapcode = BitVec.ofNat 64 PRIV_VIOLATION := by decide +kernel
theorem test_teamshape : scalar (.srd (.s 4) .teamshape) group 4 = num (0x10000 + 96 * 0x100 + 0x11) := by decide +kernel
-- vectors: 10 R247 to R263
theorem test_vadd_inactive : let t := (after (.vadd 1 2 (.v 3)) (lanes 0x80 (vec [(2, word 5), (3, word 7), (1, word 9)] group))).cur
    (t.getV 1 7).v = 12 ∧ (t.getV 1 8).v = 9 := by decide +kernel
theorem test_vshl_masks : lane7 (.vshl 1 2 (.v 3)) 3 33 0 = 6 := by decide +kernel
theorem test_vmulh : lane7 (.vmulh 1 2 (.v 3)) 0x80000000 2 0 = 0xFFFFFFFF := by decide +kernel
theorem test_vdp4 : lane7 (.vdp4 1 2 (.v 3)) 0xFF010203 0x02010101 10 = 14 := by decide +kernel
theorem test_vbfe : lane7 (.vbfe 1 2 (.v 3)) 0xF0 0x404 0 = 0xFFFFFFFF := by decide +kernel
theorem test_vfadd_tie : lane7 (.vfadd 1 2 (.v 3)) 0x3F800000 0x33800000 0 = 0x3F800000 := by decide +kernel
theorem test_vfma_exact : lane7 (.vfma 1 2 (.v 3)) 0x3F800001 0x3F800001 0xBF800000 = 0x34800000 := by decide +kernel
theorem test_vfmin_zero : lane7 (.vfmin 1 2 (.v 3)) 0 0x80000000 0 = 0x80000000 := by decide +kernel
theorem test_vfrcp_zero : lane7 (.vfrcp 1 2) 0x80000000 0 0 = 0xFF800000 := by decide +kernel
theorem test_vfsqrt : lane7 (.vfsqrt 1 2) 0x40800000 0 0 = 0x40000000 := by decide +kernel
theorem test_vcvt_saturates : lane7 (.vcvtS32F32 1 2) 0x4F000000 0 0 = 0x7FFFFFFF := by decide +kernel
theorem test_vcvt_bf16 : lane7 (.vcvtBf16F32 1 2 (.v 3)) 0x3F808000 0xABCD 0 = 0xABCD3F80 := by decide +kernel
theorem test_vhadd : lane7 (.vhadd .hf 1 2 (.v 3)) 0x3C004000 0x3C003C00 0 = 0x40004200 := by decide +kernel
theorem test_vfclass : lane7 (.vfclass 1 2) 0x80000001 0 0 = 0x4 := by decide +kernel
theorem test_vdadd : let t := (after (.vdadd 4 2 (.v 2)) (vec [(2, word 0), (3, word 0x3FF00000)] group)).cur
    (t.getV2 4 95).v = 0x4000000000000000 := by decide +kernel
theorem test_vredMin : lane7 (.vredMin 1 2) 0x80000000 0 0 = 0x80000000 := by decide +kernel
theorem test_vlane : ((after (.vlane 1) (lanes 0x88 group)).cur.getV 1 7).v = 1 := by decide +kernel

/-- The worked example of 10 R263: lanes 80 to 95 never launched, 40 to 47 exited, 8 to 15 masked off. -/
def launch80 : LaneMask := BitVec.ofNat 96 (2 ^ 80 - 1)
def exited : LaneMask := BitVec.ofNat 96 (0xFF * 2 ^ 40)
def exampleThread (p4 : LaneMask) : Thread := lanes (launch80 &&& ~~~exited &&& ~~~0xFF00) (put [(5, num 64)] (vec [
  (1, fun L => if L < 80 then ⟨BitVec.ofNat 32 (if 40 ≤ L ∧ L < 48 then 1000 + L else L), false⟩ else Lane.zero),
  (2, fun L => if L < 80 then ⟨BitVec.ofNat 32 (95 - L), false⟩ else Lane.zero),
  (3, fun L => if L < 80 then ⟨7, false⟩ else Lane.zero)]
  { group with launched := launch80, live := launch80 &&& ~~~exited, preds := setAt group.preds 4 ⟨p4, 0⟩ }))
theorem test_example_vperm : let t := (after (.vperm 3 1 (.v 2)) (exampleThread launch80)).cur
    [0, 3, 8, 15, 16, 39, 40, 47, 48, 55, 56, 79, 80, 95].map (fun L => (t.getV 3 L).v.toNat)
      = [0, 0, 7, 7, 79, 56, 7, 7, 1047, 1040, 39, 16, 0, 0] := by decide +kernel
/-- p4 of the example after its VICMP.LT. -/
def example_p4 : LaneMask := BitVec.ofNat 96 (2 ^ 64 - 1)
theorem test_example_vicmp : ((after (.vicmpLt 4 1 (.s 5)) (exampleThread launch80)).cur.getP 4) = ⟨example_p4, 0⟩ := by
  decide +kernel
theorem test_example_ballot : let t := (after (.ballot 20 4) (exampleThread example_p4)).cur
    t.getS 20 = num 0xFFFF00FF ∧ t.getS 21 = num 0xFFFF00FF ∧ t.getS 22 = num 0 := by decide +kernel
theorem test_example_pcnt : scalar (.pcnt 23 4) (exampleThread example_p4) 23 = num 48 := by decide +kernel

-- memory: 11 R273 to R278, 02 R50
theorem test_atomic_cas : atomApply ⟨.cas, 4, 4, 7, 9, false⟩ 0x700000000 false = (0x900000000, false, ⟨7, false⟩) := by decide +kernel
theorem test_atomic_poison : atomApply ⟨.add, 0, 8, 1, 0, true⟩ 5 false = (5, true, ⟨0, true⟩) := by decide +kernel
-- steps: a placed word runs (log 33); 07: SADDI s3, s3, -1
theorem test_step_placed : (match step (State.reset.withFetchWord 32 0x163C7FFF) with
    | .next s => s.threads.map fun t => (t.getS 3).v
    | _ => []) = [0xFFFFFFFFFFFFFFFF] := by decide +kernel

/-! ### States that meet the hypotheses of the statements

One theorem for each statement that has hypotheses beside `ready` (which `witness_ready_…` show): a state for each clause,
with the boundary values of its range. -/

/-- A log entry with lanes `done` performed. -/
def logged (op : MemOp) (dst : Dst) (done : LaneMask) : LogEntry := ⟨7, 0, 0x10000, op, dst, false, false, BitVec.allOnes 96, done, 0,
  [], 0, false, [], [], 0, 0, 0, [], 0, []⟩
def onTeam (f : Team → Team) (s : State) : State := { s with teams := s.teams.map f }
def onCtx (f : Ctx → Ctx) (s : State) : State := { s with ctxs := mapFrom (fun i c => if i == 0 then f c else c) 0 s.ctxs }
def onUi (f : UiRegs → UiRegs) (s : State) : State := onCtx (fun c => { c with ui := f c.ui }) s
def onCore (f : Core → Core) (s : State) : State := { s with cores := mapFrom (fun i c => if i == 0 then f c else c) 0 s.cores }

-- s28, s29 and s31 as destinations, and in supervisor mode s31, which masks nothing there (06 R155)
theorem witness_ScalarTwoSource :
    (ready (.sadd 31 2 3) (pkg (put [(2, num 1)] group)) ∧ masks group 31 = true ∧ masks group 28 = false ∧ masks handler 31 = false)
    ∧ ready (.sbfe 29 2 3) (pkg (put [(3, num 0x7F3F)] group)) ∧ ready (.sdiv 1 2 0) (pkg (put [(2, bad)] group)) := by
  unfold ready; decide +kernel
theorem witness_ScalarOneSource : ready (.ssel 30 2 3) (pkg (put [(2, num 1), (3, bad)] group)) ∧ group.cc.z = false
    ∧ (group.getS 2).p = false ∧ ready (.sshli 28 2 63) (inMode .user) ∧ ready (.ssrai 0 2 0) (inMode .sup) := by
  unfold ready; decide +kernel
theorem witness_PoisonedMaskTraps : let s := pkg (put [(2, bad)] group);
    masks s.cur 29 = true ∧ masks s.cur 31 = true ∧ (s.cur.getS 2).p = true ∧ noneOlder s ∧ ready (.sadd 29 2 3) s
    ∧ ready (.sbfi 31 2 3) s ∧ ready (.saddi 30 2 0) s := by unfold ready noneOlder; decide +kernel
theorem witness_CompareOrders : (∀ x ∈ [num 0, num (2 ^ 63), num (2 ^ 64 - 1), bad],
    let s := pkg (put [(2, x), (3, num (2 ^ 63))] group);
    noneOlder s ∧ ready (.scmp 2 3) s ∧ ready (.scmpi 2 0x1000) s) := by unfold ready noneOlder; decide +kernel
theorem witness_RegisterFile : group.shaped ∧ handler.shaped ∧ masks group 28 = false ∧ masks handler 31 = false
    ∧ handler.mode = .sup ∧ masks handler 15 = false ∧ masks handler 16 = false := by unfold Thread.shaped; decide +kernel
theorem witness_MaskWrite : group.shaped ∧ masks group 29 = true ∧ masks group 30 = true ∧ masks group 31 = true := by
  unfold Thread.shaped; decide +kernel
theorem witness_BranchesAndJumps : let s := pkg (put [(4, num 0x20004), (5, num 0x20002), (6, bad)] group);
    ready (.br .al 0x200000) s ∧ ready (.bl .nl 0) s ∧ noneOlder s
    ∧ (ready (.jr 4) s ∧ (s.cur.getS 4).p = false ∧ (s.cur.getS 4).v.extractLsb' 0 2 = 0) ∧ (s.cur.getS 5).v.extractLsb' 0 2 ≠ 0
    ∧ ready (.jr 5) s ∧ ready (.jlr 28 6) s ∧ (s.cur.getS 6).p = true := by unfold ready noneOlder; decide +kernel
theorem witness_ControlWords :
    (let s := pkg (lanes 1 { group with log := [logged .icinv .none (BitVec.allOnes 96), logged (.load 4 .s) .none 0] });
      ready .fetchb s ∧ ready .lexit s ∧ ready (.win 15) s ∧ s.cur.live &&& ~~~s.cur.mask ≠ 0
      ∧ ∀ e ∈ s.cur.liveLog, e.op = .icinv → e.unperformed = 0)
    ∧ ∀ m ∈ [team, { team with pinEnd := some 5 }, { team with lastPinEnd := some 1000 }],
      let s := onTeam (fun _ => m) (pkg group);
      s.team? s.cur.team = some m ∧ (∀ x ∈ s.teams, x.id = m.id → x = m) ∧ ready .pinon s ∧ ready .pinoff s := by
  unfold ready; decide +kernel
theorem witness_ExitLeaves : (∀ s ∈ [pkg group, inMode .seq], ready .exit s ∧ s.out = true ∧ noneOlder s)
    ∧ ready .lexit (pkg group) ∧ group.live &&& ~~~group.mask = 0 := by unfold ready noneOlder; decide +kernel
theorem witness_SysAndBreak : ∀ s ∈ [pkg group, pkg (lanes 0 group)], s.cur.stream = false ∧ s.cur.mode = .user
    ∧ (s.ctxOf s.cur).trapvec ≠ 0 ∧ noneOlder s ∧ ready .sys s ∧ ready .brk s := by unfold ready noneOlder; decide +kernel
theorem witness_SysAndBreak_masks : group.mask ≠ 0 ∧ (lanes 0 group).mask = 0 := by decide +kernel
theorem witness_ContextErrors : ∀ s ∈ [pkg stream, pkg handler, onCtx (fun c => { c with trapvec := 0 }) (pkg group)],
    s.team? s.cur.team = some team ∧ s.grid? team.grid = some grid ∧ grid.stage = .running ∧ grid.err = false ∧ s.out = true
    ∧ grid.slot < 64 ∧ (s.cur.stream = true ∨ s.cur.mode = .sup ∨ (s.ctxOf s.cur).trapvec = 0) := by decide +kernel
/-- A group that took a logged trap of its entry 7. -/
def trapped (drop : Bool) : Thread := { handler with
  log := [logged (.load 4 .s) (.vec 9 1) 0, { logged (.load 4 .s) (.vec 8 1) 0 with id := 8 }]
  trapLog := true, trapDrop := drop, trapEntry := 7, trapnpc := 0x10004 }
theorem witness_TrapReturn : ∀ s ∈ [pkg handler, pkg (trapped true), pkg (trapped false)], ready .trapret s ∧ noneOlder s
    ∧ s.cur.sregs.length = 32 := by unfold ready noneOlder; decide +kernel
theorem witness_TrapReturn_log : ∀ drop, (trapped drop).trapLog = true ∧ (trapped drop).trapDrop = drop
    ∧ (∀ e ∈ (trapped drop).log, e.unperformed ≠ 0 ∧ e.sup = false) ∧ ∃ e ∈ (trapped drop).log, e.id ≠ (trapped drop).trapEntry := by
  decide +kernel
/-- 07 R176, R182: what a mode may run, by the major and the fn of a word. -/
def mayRun : Mode → Nat → Nat → Bool
  | .user, major, _ => major != 31
  | .sup, major, fn => 1 ≤ major && major ≤ 12 || major == 19 || major == 31 || major == 0 && [0, 5, 6, 7, 12, 13, 14, 15].contains fn
    || major == 17 && (fn ≤ 6 || 11 ≤ fn && fn ≤ 17)
  | .seq, major, fn => 1 ≤ major && major ≤ 12 || major == 19 || major == 27
    || major == 0 && [0, 1, 3, 6, 7, 9, 12, 13, 14, 15].contains fn || major == 17 && (fn ≤ 2 || 11 ≤ fn && fn ≤ 17)
    || major == 28 && [0, 1, 2, 3, 8, 9].contains fn || major == 30 && fn == 0
noncomputable def sortsModes (rows : List Row) : Bool := rows.all fun r => [Mode.user, .sup, .seq].all fun m =>
  (modeReject r.2.2.modes m).isNone == mayRun m (r.2.1.extractLsb' 27 5).toNat (r.2.1.extractLsb' 21 6).toNat
theorem test_modes_scalar : sortsModes (wordsCtrl ++ wordsSalu ++ wordsSmem ++ wordsMemctl) = true := by decide +kernel
theorem test_modes_vector : sortsModes (wordsVmem ++ wordsSpm ++ wordsVialu ++ wordsFpA ++ wordsFpB ++ wordsCvt ++ wordsVcmp
    ++ wordsXlane) = true := by decide +kernel
theorem test_modes_units : sortsModes (wordsCopy ++ wordsMatrix ++ wordsUint ++ wordsPriv) = true := by decide +kernel
-- a privileged word in user mode and in a stream, an EXIT in supervisor mode; v31 and v32 at an allotment of 32; v9 and v8 behind
-- a load of v9, and any word behind a load of s29
theorem witness_IssueChecks :
    (noneOlder (pkg group) ∧ group.mode = .user ∧ group.stream = false ∧ ((encode (.halt 1)).extractLsb' 27 5).toNat = 0x1F)
    ∧ (noneOlder (pkg stream) ∧ stream.stream = true ∧ ((encode .trapret).extractLsb' 27 5).toNat = 0x1F)
    ∧ (noneOlder (pkg handler) ∧ handler.mode = .sup ∧ (encode .exit).extractLsb' 21 11 = 1)
    ∧ (let t := { group with allot := 32, wbase := 16 };
      noneOlder (pkg t) ∧ rX (.v 16) ∈ (Instr.vadd 1 2 (.v 16)).uses ∧ t.allot ≤ t.wbase + 16 ∧ ¬ t.allot ≤ t.wbase + 15
      ∧ ready (.vadd 1 2 (.v 15)) (pkg t))
    ∧ (let t := { group with log := [logged (.load 4 .s) (.vec 9 1) 0] };
      rX (.v 9) ∈ (Instr.vadd 1 2 (.v 9)).uses ∧ (logged (.load 4 .s) (.vec 9 1) 0) ∈ t.liveLog
      ∧ (logged (.load 4 .s) (.vec 9 1) 0).unperformed ≠ 0 ∧ t.wbase = 0 ∧ ready (.vadd 1 2 (.v 8)) (pkg t)
      ∧ ∀ e ∈ t.liveLog, e.dst = .vec 9 1)
    ∧ (masks group 29 = true ∧ ¬ ready .nop (pkg { group with log := [logged (.load 4 .normal) (.scal 29 false) 0] })) := by
  unfold ready noneOlder; decide +kernel
theorem witness_SignatureCheck : ready (.sigchk 0xFFFFF) (pkg group) ∧ noneOlder (pkg group)
    ∧ (group.sig ^^^ 0xFFFFFFFF).extractLsb' 0 20 ≠ 0xFFFFF ∧ (group.sig ^^^ 0xFFFFFFFF).extractLsb' 0 20 = 0
    ∧ ready (.sigchk 0) (pkg group) ∧ group.stream = false ∧ group.mode = .user ∧ ((pkg group).ctxOf group).trapvec ≠ 0 := by
  unfold ready noneOlder; decide +kernel

theorem witness_ReadSpecial : ∀ s ∈ [pkg group, pkg handler, pkg stream], s.team? s.cur.team = some team
    ∧ s.grid? team.grid = some grid ∧ s.cluster? team.cluster = some ⟨3, 4, 0, [(0, 2)], false⟩ ∧ noneOlder s
    ∧ ready (.srd (.s 1) .groupid) s ∧ modeReject (true, true, true) s.cur.decodeMode = none := by unfold ready noneOlder; decide +kernel
theorem witness_ReadSpecial_modes :
    (ready (.srd (.s 31) (.live 2)) (pkg group) ∧ modeReject (true, true, false) group.decodeMode = none)
    ∧ (ready (.srd (.v 1) .laneid) (pkg group) ∧ modeReject (true, false, false) group.decodeMode = none ∧ group.decodeMode = .user)
    ∧ (ready (.srd (.s 1) .trapcode) (pkg group) ∧ modeReject (false, true, false) group.decodeMode = some .priv)
    ∧ (ready (.srd (.s 1) (.uirule 63)) (pkg handler) ∧ modeReject (true, false, false) handler.decodeMode = some (.illegal 4))
    ∧ (ready (.srd (.s 1) (.trapmask 2)) (pkg handler) ∧ modeReject (false, true, false) handler.decodeMode = none)
    ∧ (ready (.srd (.s 1) .laneid) (pkg stream) ∧ modeReject (true, false, false) stream.decodeMode = some (.illegal 4)) := by
  unfold ready; decide +kernel
theorem witness_WriteSpecial : (∀ x ∈ [num (2 ^ 64 - 1), bad],
      let s := pkg (put [(3, x)] group); noneOlder s ∧ ready (.swr .ccr 3) s ∧ ready (.swr .fpcr 3) s
      ∧ modeReject (true, false, false) s.cur.decodeMode = none)
    ∧ (num 0).p = false ∧ bad.p = true ∧ ready (.swr (.trapmask 2) 3) (pkg handler) ∧ ready (.swr .trappc 3) (pkg handler)
    ∧ ready (.swr .ccr 3) (pkg stream) ∧ modeReject (false, true, false) handler.decodeMode = none := by
  unfold ready noneOlder; decide +kernel
theorem witness_WriteInterruptRegisters : ∀ s ∈ [pkg (put [(3, num 1)] group),
      onUi (fun u => { u with hg := some 1 }) (pkg (put [(3, num 1)] group)), onUi (fun u => { u with hg := some 1 }) (pkg group),
      onUi (fun u => { u with hg := some 5, inh := true }) (pkg (put [(3, num 1)] group))],
    s.team? s.cur.team = some team ∧ s.grid? team.grid = some grid ∧ grid.slot < s.ctxs.length ∧ s.cur.decodeMode = .user
    ∧ (s.cur.getS 3).p = false ∧ ready (.swr .uihg 3) s ∧ ready (.swr (.uicnt 63) 3) s ∧ ready (.swr (.uirule 0) 3) s
    ∧ ready (.swr (.uisavm 2) 3) s ∧ ready (.swr .uideny 3) s := by unfold ready; decide +kernel
theorem witness_PrivilegedRegisters : ∀ s ∈ [pkg handler, pkg { handler with invs := [3] }, pkg (trapped false)],
    (s.cur.getS 4).p = false ∧ ready (.srdp 31 (.ncw 15)) s ∧ ready (.swrp (.ncw 15) 4) s ∧ ready (.swrp .trapnpc 4) s
    ∧ ready .freplay s ∧ ready .fdrop s ∧ ready .tlbsync s ∧ ready (.halt 4) s := by unfold ready; decide +kernel
theorem witness_FrozenLane :
    (let s := pkg (put [(4, num 95), (5, num 96), (6, num (2 ^ 32))] handler); noneOlder s ∧ s.cur.shaped
      ∧ ready (.lsel 4) s ∧ (s.cur.getS 4).p = false ∧ (s.cur.getS 4).v.toNat ≤ 95
      ∧ ready (.lsel 5) s ∧ (s.cur.getS 5).p = false ∧ 95 < (s.cur.getS 5).v.toNat
      ∧ ready (.lrdv 1 63) s ∧ ready (.lrdp 1 31) s ∧ ready (.lwrv 6 63) s ∧ ready (.lwrp 6 31) s ∧ (s.cur.getS 6).p = false
      ∧ s.cur.lselv < 96)
    ∧ handler.launched.getLsbD 95 = true ∧ ({ handler with launched := launch80 } : Thread).launched.getLsbD 95 = false := by
  unfold ready noneOlder Thread.shaped; decide +kernel
/-- A package of a span of two cells, whose entries 0 and 1 are present packages and 2 a host. -/
def spanned (t : Thread) : State := { pkg t with spancfg := 0x400000, celltab := [5, 0x101, 3] ++ List.replicate 1021 0 }
theorem witness_InvalidationSent :
    (∀ a ∈ ([0, 0x100000000, 1, 2] : List Nat), let s := spanned (put [(4, num a), (5, num (2 ^ 57 - 1))] handler); ready (.tlbinv 4 5) s
      ∧ (s.cur.getS 4).p = false ∧ (s.cur.getS 5).p = false ∧ (s.cur.getS 4).v.extractLsb' 2 14 = 0
      ∧ (s.cur.getS 4).v.extractLsb' 42 22 = 0 ∧ ((s.cur.getS 4).v.extractLsb' 0 2).toNat ≠ 3
      ∧ (s.cur.getS 5).v.extractLsb' 57 7 = 0 ∧ present s ((s.cur.getS 4).v.extractLsb' 32 10).toNat = true
      ∧ isHost s ((s.cur.getS 4).v.extractLsb' 32 10).toNat = false ∧ s.self = 0)
    ∧ (∀ a ∈ ([3, 4, 0x200000000, 0x300000000, 2 ^ 42] : List Nat), let s := spanned (put [(4, num a)] handler);
      ready (.tlbinv 4 5) s ∧ noneOlder s
      ∧ ¬ ((s.cur.getS 4).v.extractLsb' 2 14 = 0 ∧ (s.cur.getS 4).v.extractLsb' 42 22 = 0 ∧ ((s.cur.getS 4).v.extractLsb' 0 2).toNat ≠ 3
        ∧ present s ((s.cur.getS 4).v.extractLsb' 32 10).toNat = true
        ∧ isHost s ((s.cur.getS 4).v.extractLsb' 32 10).toNat = false)) := by unfold ready noneOlder; decide +kernel
theorem witness_LaneWrites : (let t := { group with wbase := 32 }; t.shaped ∧ t.wbase + (63 : VReg).val < t.allot
      ∧ t.wbase + (62 : VReg).val + 1 < t.allot)
    ∧ (exampleThread 0).shaped ∧ (exampleThread 0).activeLane 7 = true ∧ (exampleThread 0).activeLane 8 = false
    ∧ (exampleThread 0).activeLane 95 = false := by unfold Thread.shaped; decide +kernel
theorem witness_VectorFloat : (pkg group).team? group.team = some team ∧ ready (.teval 63 63) (pkg group)
    ∧ ready (.vfma 0 63 (.s 31)) (pkg group) := by unfold ready; decide +kernel
theorem witness_ClassAndTable : ∀ x ∈ [num 0x3F80000040000000, bad], let s := pkg (put [(5, x)] group);
    s.team? s.cur.team = some team ∧ (∀ y ∈ s.teams, y.id = team.id → y = team) ∧ team.act.coef.length = 96
    ∧ ready (.tld 63 5) s ∧ ready (.vfclass 63 0) s ∧ ready (.vdclass 63 62) s := by unfold ready; decide +kernel
/-- The example's thread with p4 poisoned in one lane that is masked off and, if asked, in lane 79. -/
def poisoned (on : Bool) : Thread :=
  { exampleThread 0 with preds := setAt group.preds 4 ⟨1, (1 : LaneMask) <<< 8 ||| if on then (1 : LaneMask) <<< 79 else 0⟩ }
theorem witness_MaskFromPredicate : ∀ on, let t := poisoned on; let s := pkg t;
    ((t.getP 4).p &&& t.mask = 0 ↔ on = false) ∧ (t.getP 4).p &&& t.live ≠ 0 ∧ (t.getP 5).p &&& t.live = 0 ∧ noneOlder s
    ∧ ready (.mandp 4) s ∧ ready (.mandnp 4) s ∧ ready (.msetp 4) s ∧ ready (.msetp 5) s ∧ ready (.pcnt 28 4) s
    ∧ ready (.pcnt 29 4) s ∧ masks t 29 = true ∧ masks t 28 = false ∧ ready (.ballot 26 4) s ∧ ready (.ballot 0 4) s
    ∧ ready (.ballot 29 4) s ∧ t.mode = .user ∧ t.stream = false ∧ t.shaped := by unfold ready noneOlder Thread.shaped; decide +kernel
theorem witness_CrossLane : ∀ s ∈ [pkg group, pkg (lanes (BitVec.ofNat 96 (2 ^ 95)) group)], s.cur.mask ≠ 0 ∧ ready (.vperm 0 1 (.v 2)) s
    ∧ ready (.vbcast 63 0 31) s ∧ ready (.vredMin 0 63) s ∧ ready (.vscanAdd 1 1) s ∧ ready (.vsel 31 1 2 (.s 3)) s
    ∧ ready (.vfredAdd 0 1) s := by unfold ready; decide +kernel
theorem witness_CrossLane_none : ready (.vfredAdd 0 1) (pkg (lanes 0 group)) ∧ (lanes 0 group).mask = 0 := by
  unfold ready; decide +kernel

-- addresses 0x10, at the top of memory, misaligned and poisoned; a log of 7 and of 8 entries
def holding (n : Nat) (t : Thread) : Thread := { t with log := List.replicate n (logged (.store 4 .normal) .none (BitVec.allOnes 96)) }
theorem witness_ScalarMemory : ∀ n ∈ [7, 8], let s := pkg (holding n (put [(5, num 0x10), (6, num (2 ^ 64 - 8)), (7, num 0x13), (8, bad)] group));
    noneOlder s ∧ (s.cur.log.length = n) ∧ ready (.sldd 31 5 0x3FF) s ∧ ready (.satomCas 1 6 2) s ∧ ready (.sstb 2 7 0) s
    ∧ ready (.ssth 2 8 0) s ∧ (s.cur.getS 8).p = true
    ∧ (∀ r ∈ ([5, 6] : List SReg), (s.cur.getS r).p = false ∧ (s.cur.getS r).v.toNat % 8 = 0)
    ∧ (s.cur.getS 7).p = false ∧ (s.cur.getS 7).v.toNat % 2 ≠ 0 ∧ (s.cur.getS 7).v.toNat % 1 = 0 := by
  unfold ready noneOlder; decide +kernel
/-- v3 is the address of each lane: in v4 poisoned in lane 5, in v5 misaligned from lane 5 on. -/
def vectors (m : LaneMask) (n : Nat) : Thread := lanes m (holding n (vec [(2, word 0x40), (4, fun L => ⟨64, decide (L = 5)⟩),
  (5, fun L => ⟨if L < 5 then 64 else 65, false⟩)] (put [(5, num 0x10), (8, bad)] group)))
theorem witness_VectorMemory_none : ready (.vldq .normal 60 (.base 5 (.v 2))) (pkg (vectors 0 0)) ∧ (vectors 0 0).mask = 0
    ∧ ((vectors 0 0).getS 5).p = false := by unfold ready; decide +kernel
theorem witness_VectorMemory_base : ready (.vstq .nl 60 (.base 5 (.s 5))) (pkg (vectors 0 0))
    ∧ ∀ L, (((vectors 0 0).getS 5).p || ((vectors 0 0).getX64 (.s 5) L).p) = false :=
  ⟨by unfold ready; decide +kernel, fun _ => rfl⟩
theorem witness_VectorMemory : ∀ n ∈ [7, 8], let t := vectors (BitVec.allOnes 96) n; let s := pkg t; noneOlder s ∧ t.mask ≠ 0
    ∧ ready (.vldd .normal 62 (.base 5 (.s 5))) s ∧ ready (.vstq .s 60 (.base 5 (.s 5))) s ∧ ready (.atomCasD 60 (.pair 2)) s
    ∧ (∀ L ∈ lanesOf t.mask, ((t.getS 5).p || (t.getX64 (.s 5) L).p) = false
      ∧ ((t.getS 5).v + (t.getX64 (.s 5) L).v).toNat % 16 = 0)
    ∧ (∃ L ∈ lanesOf t.mask, (t.getV2 4 L).p = true) ∧ ready (.vldb .normal 0 (.pair 4)) s
    ∧ (∀ L ∈ lanesOf t.mask, (t.getV2 5 L).p = false) ∧ 5 ∈ lanesOf t.mask ∧ (t.getV2 5 5).v.toNat % 2 ≠ 0
    ∧ (∀ K ∈ lanesOf t.mask, K < 5 → (t.getV2 5 K).v.toNat % 2 = 0) ∧ ready (.vsth .nl 0 (.pair 5)) s
    ∧ (t.log.length = n) := by unfold ready noneOlder; decide +kernel
theorem witness_ScratchMemory : ∀ n ∈ [7, 8], let t := vectors (BitVec.allOnes 96) n; let s := pkg t; noneOlder s ∧ t.mask ≠ 0
    ∧ ready (.spldq 60 5 (.v 2)) s ∧ ready (.spstd 4 5 (.v 2)) s ∧ ready (.spatomFadd 63 5 (.v 2)) s ∧ ready (.spstw 4 5 (.v 2)) s
    ∧ (∀ L ∈ lanesOf t.mask, ((t.getS 5).p || (t.getX (.v 2) L).p) = false ∧ ((t.getS 5).v + (t.getX (.v 2) L).v.signExtend 64).toNat % 16 = 0)
    ∧ (∃ L ∈ lanesOf t.mask, (t.getX (.v 4) L).p = true)
    ∧ (∃ L ∈ lanesOf t.mask, (laneData t 4 1 L).2 = true ∧ carriesPoison 4 (laneData t 4 1 L).1 = false)
    ∧ (∀ L ∈ lanesOf t.mask, (laneData t 2 1 L).2 = false)
    ∧ ((t.getS 5).v + (t.getX (.v 5) 5).v.signExtend 64).toNat % 4 ≠ 0
    ∧ (∀ K ∈ lanesOf t.mask, K < 5 → ((t.getS 5).v + (t.getX (.v 5) K).v.signExtend 64).toNat % 4 = 0) := by
  unfold ready noneOlder; decide +kernel
def okIs {α : Type} [DecidableEq α] (x : Except Nat α) (y : α) : Bool := match x with
  | .ok z => decide (z = y)
  | .error _ => false
/-- One lane, L, with a scratchpad of 4096 bytes: s5 is the own team's run and v2 an offset. -/
def oneLane (L off : Nat) : State := { pkg (lanes (BitVec.ofNat 96 (2 ^ L)) (put [(5, num 0xF80000)] (vec [(2, word off)] group))) with
  grids := [{ grid with r := { placedRec with scrb := 4096 } }] }
theorem witness_ScratchEffect : ∀ x ∈ ([(0, 0, 16), (95, 4080, 16), (95, 4095, 1), (7, 4092, 4)] : List (Nat × Nat × Nat)), let s := oneLane x.1 x.2.1;
    let t := s.cur; let adr : Dword := (t.getS 5).v + (t.getX (.v 2) x.1).v.signExtend 64;
    s.team? t.team = some team ∧ (∀ y ∈ s.teams, y.id = team.id → y = team) ∧ team.exited = false ∧ s.out = true ∧ t.shaped ∧ t.log = []
    ∧ replayFull s t.core = false
    ∧ x.1 < 96 ∧ t.mask = BitVec.ofNat 96 (2 ^ x.1) ∧ t.launched.getLsbD x.1 = true ∧ (t.getS 5).p = false
    ∧ (t.getX (.v 2) x.1).p = false ∧ adr.toNat % x.2.2 = 0 ∧ okIs (scratchAddr s t.team adr x.2.2) (t.team, x.2.1) = true
    ∧ heldBy team.marks 1 0 x.2.1 x.2.2 = .free ∧ t.wbase + (60 : VReg).val + 4 ≤ t.allot ∧ (t.getV 60 x.1).p = false
    ∧ (laneData t 60 4 x.1).2 = false ∧ ready (.spldq 60 5 (.v 2)) s ∧ ready (.spstq 60 5 (.v 2)) s
    ∧ ready (.spstb 60 5 (.v 2)) s ∧ ready (.spatomCas 60 5 (.v 2)) s := by unfold ready Thread.shaped; decide +kernel
/-- A page at 0x20000 in the TLB of the core, its first line under a lease in the L1, and s5 in it. -/
def page : TlbEnt := ⟨0x20000, 65536, 0, 0x20000, true, true, true, false, false⟩
def leased : L1Line := ⟨1024, none, 0x1234, 2000, true⟩
def withPage (t : Thread) : State := onCore (fun k => { k with tlb := [page], l1 := [leased] }) (pkg t)
theorem witness_LoadHits : ∀ a ∈ [0x20000, 0x20078], let s := withPage (put [(5, num a)] group); let t := s.cur;
    s.out = true ∧ t.log = [] ∧ replayFull s t.core = false ∧ (t.getS 5).p = false ∧ a % 8 = 0 ∧ a < 2 ^ 57 ∧ (t.getS 5).v.toNat = a
    ∧ (s.core t.core).tlb.find? (fun e => e.covers (s.slotOf t) a) = some page ∧ page.u = true ∧ page.phys a = a
    ∧ heldBy (s.marksOf t.team) 0 0 a 8 = .free ∧ isRegLine s 1024 = false ∧ inWindow (s.ctx (s.slotOf t)) a = false
    ∧ l1Hit s t.core (s.slotOf t) 1024 false = some leased ∧ (sbBytes s t.core 1024 (s.slotOf t) false (maskAt (a % 128) 8)).2.1 = 0
    ∧ maskAt (a % 128) 8 ≠ 0 ∧ ready (.sldd 28 5 0) s ∧ masks t 28 = false := by unfold ready; decide +kernel
theorem witness_StoreBuffered : ∀ a ∈ [0x20000, 0x2FFF8], let s := withPage (put [(5, num a)] group); let t := s.cur;
    t.log = [] ∧ t.core < s.cores.length ∧ replayFull s t.core = false ∧ s.agenda = [] ∧ (t.getS 5).p = false ∧ a % 8 = 0 ∧ (t.getS 5).v.toNat = a
    ∧ (s.core t.core).tlb.find? (fun e => e.covers (s.slotOf t) a) = some page ∧ page.u = true ∧ page.w = true
    ∧ heldBy (s.marksOf t.team) 0 0 a 8 = .free ∧ isRegLine s (page.phys a / 128) = false ∧ (s.core t.core).sb.length < 32
    ∧ sbWaits s t.core (page.phys a / 128) = false ∧ (∀ x ∈ (s.core t.core).sb, x.line ≠ page.phys a / 128) ∧ ready (.sstd 31 5 0) s ∧ ready (.sstb 0 5 0) s := by
  unfold ready; decide +kernel
-- offsets 0 and the last of a line, for both sizes
theorem witness_AtomicEffect : ∀ x ∈ ([(4, 0), (4, 124), (8, 0), (8, 120)] : List (Nat × Nat)), (x.1 = 4 ∨ x.1 = 8) ∧ x.2 % x.1 = 0
    ∧ x.2 + x.1 ≤ 128 ∧ AtomOp.cas ≠ .fadd ∧ AtomOp.cas ≠ .fmin ∧ AtomOp.cas ≠ .fmax := by decide +kernel
theorem witness_Fences : let s := pkg group; let t := s.cur; t.liveLog = [] ∧ t.lct ≤ s.now ∧ (s.core t.core).sb = []
    ∧ (s.l2 = [] ∧ s.grids = [grid] ∧ grid.outcomes = []) ∧ untrackedOpen s (s.slotOf t) = false ∧ remoteOpen s t.uid = false
    ∧ (s.ctx (s.slotOf t)).pdeny = none ∧ (s.ctx (s.slotOf t)).outcomes = [] ∧ ready .fenceCore s ∧ ready .fencePkg s ∧ ready .fenceSpan s
    ∧ ready .waitc s := by unfold ready; decide +kernel
theorem witness_Fences_wait : ∀ op ∈ [MemOp.load 4 .s, .store 8 .nl], let s := pkg { group with log := [logged op .none 0] };
    s.cur.liveLog = [logged op .none 0] ∧ (logged op .none 0).unperformed ≠ 0 ∧ (s.core s.cur.core).sb = []
    ∧ ready .fenceCore s ∧ ready .fencePkg s ∧ ready .fenceSpan s := by unfold ready; decide +kernel
theorem witness_CacheRanges : ∀ n ∈ [7, 8], let s := pkg (holding n (put [(5, num 0), (6, num 1), (7, num 2097152), (8, num 2097153), (9, bad)] group));
    noneOlder s ∧ s.cur.log.length = n ∧ (∀ r ∈ ([5, 6, 7, 8] : List SReg), (s.cur.getS r).p = false) ∧ (s.cur.getS 5).v = 0
    ∧ 0 < (s.cur.getS 6).v.toNat ∧ (s.cur.getS 7).v.toNat ≤ 2097152 ∧ 2097152 < (s.cur.getS 8).v.toNat ∧ (s.cur.getS 9).p = true
    ∧ ready (.cflush 5 none) s ∧ ready (.cinv 5 (some 6)) s ∧ ready (.icinv 5 (some 8)) s ∧ ready (.cinv 9 (some 7)) s
    ∧ ready (.pref 5 (some 8)) s := by unfold ready noneOlder; decide +kernel
theorem witness_CacheRanges_line : ∀ st ∈ [L2St.dirty, .clean],
    let s := { onCore (fun k => { k with l1 := [] }) (withPage (put [(5, num 0x2FFFF)] group)) with
      l2 := [(⟨0x5FF, st, none, 0, false, 9, 0, 0⟩ : L2Line)] };
    let t := s.cur; t.log = [] ∧ (t.getS 5).p = false ∧ (t.getS 5).v.toNat < 2 ^ 57
    ∧ (s.core t.core).tlb.find? (fun e => e.covers (s.slotOf t) 0x2FFFF) = some page ∧ page.u = true ∧ page.phys 0x2FFFF / 128 = 0x5FF
    ∧ isLocal s 0x5FF = true ∧ (s.core t.core).sb = [] ∧ s.reqs = [] ∧ s.l2get 0x5FF none = some ⟨0x5FF, st, none, 0, false, 9, 0, 0⟩
    ∧ s.l2get 0x5FF (some (s.slotOf t)) = none ∧ replayFull s t.core = false ∧ t.core < s.cores.length
    ∧ ready (.cflush 5 none) s ∧ ready (.cinv 5 none) s ∧ ready (.icinv 5 none) s := by unfold ready; decide +kernel
/-- The page of `page`, homed at endpoint 3; the last line of it in the L2, tracked or untracked, or not there. -/
def farPage : TlbEnt := { page with pa := 3 * 2 ^ 42 + 0x20000 }
def farLine : Nat := 3 * 2 ^ 35 + 0x5FF
def farHeld (st : L2St) (unt : Option (Nat × LineMask)) : L2Line := ⟨farLine, st, unt, 1000, false, 9, 0, 0⟩
def farLines (l2 : List L2Line) : State := { onCore (fun k => { k with tlb := [farPage] }) (pkg (put [(5, num 0x2FFFF)] group)) with l2 := l2 }
theorem witness_CacheRanges_far : ∀ l2 ∈ [[], [farHeld .m none], [farHeld .o none], [farHeld .e none], [farHeld .s none],
      [farHeld .s (some (0, 0))], [farHeld .s (some (0, 5))]], let s := farLines l2; let t := s.cur;
    t.log = [] ∧ (t.getS 5).p = false ∧ (t.getS 5).v.toNat < 2 ^ 57 ∧ s.slotOf t = 0
    ∧ (s.core t.core).tlb.find? (fun e => e.covers 0 0x2FFFF) = some farPage ∧ farPage.u = true ∧ farPage.phys 0x2FFFF / 128 = farLine
    ∧ isLocal s farLine = false ∧ (s.core t.core).sb = [] ∧ s.reqs = [] ∧ 1000 ≤ s.now ∧ replayFull s t.core = false
    ∧ t.core < s.cores.length ∧ ready (.cflush 5 none) s ∧ ready (.cinv 5 none) s
    ∧ (s.l2get farLine none).orElse (fun _ => s.l2get farLine (some 0)) = l2.head?
    ∧ ((s.l2get farLine none).isSome → s.l2get farLine (some 0) = none) := by unfold ready; decide +kernel
/-- Window 5, of one page, with every right but the one that the number names, in the core's cache; s5 its descriptor. -/
def window (lack : Nat) : List Dword := [0xF &&& ~~~((1 : Dword) <<< lack), 0x100000, 0x10000, 0x77]
def stream0 : StreamEnt := ⟨0, 0, 0, 0, [0, 0, 0, 0], 0, [(3, false), (4, true), (5, false)], none⟩
def remote (lack : Nat) (t : Thread) : State := onCtx (fun c => { c with streams := [stream0] })
  (onCore (fun k => { k with rwc := [(0, 5, window lack)] }) (pkg (put [(5, num 5), (6, num 0x305)] t)))
theorem witness_RemoteIssue_order :
    (let t := lanes 0 group; t.mask = 0 ∧ ready (.rput 1 5 (.v 2)) (remote 0 t) ∧ ready (.ratom 2 5 (.v 2)) (remote 0 t))
    ∧ (let s := remote 2 (vec [(2, word 0), (4, fun L => ⟨64, decide (L = 5)⟩), (8, fun L => ⟨if L < 5 then 64 else 65, false⟩)] group);
      noneOlder s ∧ s.cur.mask ≠ 0
      ∧ (s.core s.cur.core).rwc.find? (fun r => r.1 == s.slotOf s.cur && r.2.1 == 5) = some (s.slotOf s.cur, 5, window 2) ∧ (s.cur.getS 5).p = false
      ∧ (∃ L ∈ lanesOf s.cur.mask, (s.cur.getX64 (.v 4) L).p = true) ∧ ready (.rget 1 5 (.v 4)) s
      ∧ (s.cur.getX64 (.v 8) 5).v.toNat % 4 ≠ 0 ∧ (∀ K ∈ lanesOf s.cur.mask, K < 5 → (s.cur.getX64 (.v 8) K).v.toNat % 4 = 0)
      ∧ windowCheck (s.cur.getS 5).v (window 2) 2 false [0] 4 = some (1, 0)
      ∧ windowCheck (s.cur.getS 5).v (window 0) 1 false [0] 4 = some (0, 0)
      ∧ windowCheck (s.cur.getS 5).v (window 9) 2 false [0, 0xFFFD] 4 = some (2, 0xFFFD)
      ∧ windowCheck 0x705 (window 9) 3 true [0] 8 = some (4, 0)
      ∧ ready (.rput 1 5 (.v 8)) s ∧ ready (.rputf 2 5 (.v 8)) s) := by unfold ready noneOlder; decide +kernel
/-- The operands at s5 and s6 and an offset in v2 pass every check of window 5, which the core has in its cache. -/
theorem witness_RemoteIssue : ∀ off ∈ [0, 0xFFF8], let s := remote 9 (vec [(2, word off)] group); let t := s.cur; let act := lanesOf t.mask;
    (t.getS 5).p = false ∧ (t.getS 6).p = false ∧ t.mask ≠ 0 ∧ (∀ L ∈ act, (t.getX64 (.v 2) L).p = false) ∧ t.log = []
    ∧ (s.core t.core).rwc.find? (fun r => r.1 == s.slotOf t && r.2.1 == 5) = some (s.slotOf t, 5, window 9)
    ∧ (∀ L ∈ act, (t.getX64 (.v 2) L).v.toNat = off ∧ off % 8 = 0 ∧ off + 8 ≤ (((window 9).getD 2 0).extractLsb' 0 57).toNat)
    ∧ (t.getS 5).v.extractLsb' 6 58 = 0 ∧ (t.getS 5).v.extractLsb' 0 6 = 5 ∧ (t.getS 6).v.extractLsb' 0 6 = 5
    ∧ (t.getS 6).v.extractLsb' 6 2 = 0 ∧ (t.getS 6).v.extractLsb' 12 52 = 0 ∧ ((t.getS 6).v.extractLsb' 8 4).toNat ≤ 6
    ∧ (List.range 96).find? (fun L => t.mask.getLsbD L) = some 0 ∧ replayFull s t.core = false
    ∧ beyondCell s (winDspan (window 9)) (winDpkg (window 9)) = false
    ∧ (s.ctx (s.slotOf t)).streams.find? (fun x => x.is (winDspan (window 9)) (winDpkg (window 9)) (winDctx (window 9))) = some stream0
    ∧ stream0.closing = none ∧ stream0.flags.length < 4 ∧ (blocksOf (winBase (window 9)) (act.map fun L => (L, off))).length = 1
    ∧ ready (.rget 63 5 (.v 2)) s ∧ ready (.ratom 62 6 (.v 2)) s ∧ ready (.rput 1 5 (.v 2)) s ∧ ready (.rputf 2 5 (.v 2)) s := by
  unfold ready; decide +kernel
theorem witness_RemoteIssue_window : (∀ b ∈ ([0, 1, 2, 3] : List Nat), ((window 9).getD 0 0).getLsbD b = true)
    ∧ ((window 9).getD 0 0).extractLsb' 4 4 = 0 ∧ ((window 9).getD 0 0).extractLsb' 44 20 = 0
    ∧ ((window 9).getD 1 0).extractLsb' 57 7 = 0 ∧ ((window 9).getD 2 0).extractLsb' 57 7 = 0
    ∧ ((window 9).getD 3 0).extractLsb' 32 32 = 0 := by decide +kernel
/-- The table of streams is full, the stream is being closed, or four of its flags are not acknowledged; and it has room. -/
theorem witness_RemoteIssue_streams :
    (List.replicate 64 { stream0 with dctx := 9 }).find? (fun x => x.is (winDspan (window 9)) (winDpkg (window 9)) (winDctx (window 9))) = none
    ∧ (List.replicate 64 { stream0 with dctx := 9 }).length = 64 ∧ winDctx (window 9) ≠ 9
    ∧ [{ stream0 with closing := some 3 }].find? (fun x => x.is (winDspan (window 9)) (winDpkg (window 9)) (winDctx (window 9)))
      = some { stream0 with closing := some 3 }
    ∧ 4 ≤ ({ stream0 with flags := (9, false) :: stream0.flags } : StreamEnt).flags.length ∧ ([] : List StreamEnt).length < 64 := by decide +kernel
/-- Every link is up and no path has failed, so all four lead to every package. -/
theorem pathsTo_up (s : State) (hl : s.links = List.replicate 24 (true, 0)) (hr : s.routes = []) (sp pk : Nat) :
    pathsTo s sp pk = [0, 1, 2, 3] := by
  have h : ∀ i : Fin 24, ((List.replicate 24 (true, 0) : List (Bool × Nat)).getD i.val (false, 0)).1 = true := by decide
  have hp (p : Nat) : linkUp s (pathPort s sp pk p) = true := by
    unfold linkUp pathPort; rw [hl, hr]; exact h _
  simp [pathsTo, hp]; decide
theorem witness_RemoteIssue_counts : countsOverflow (remote 9 group) stream0 1 = false
    ∧ countsOverflow (remote 9 group) { stream0 with counts := List.replicate 4 (2 ^ 32 - 2) } 1 = true
    ∧ pathsTo (remote 9 group) (winDspan (window 9)) (winDpkg (window 9)) ≠ [] := by
  unfold countsOverflow
  show (countPath (remote 9 group) 0 0 0 stream0.counts).any _ = false
    ∧ (countPath (remote 9 group) 0 0 0 (List.replicate 4 (2 ^ 32 - 2))).any _ = true ∧ _
  rw [pathsTo_up _ rfl rfl]; unfold countPath; rw [pathsTo_up _ rfl rfl]
  generalize nextPath (remote 9 group) 0 0 0 = k
  revert k; decide +kernel

/-- With the first 512 MiB mapped to themselves, the walk in the cache, and one line in the L2. -/
def mapped (line : Nat) (data : LineData) (s : State) : State :=
  { onCtx (fun c => { c with l3 := [0x10001] }) s with
    celltab := 5 :: s.celltab.tail, wcache := [⟨0, 0, 2, 0, 0x10001⟩, ⟨0, 0, 1, 0, 0x21F⟩]
    l2 := [⟨line, .clean, none, 0, false, data, 0, 0⟩], written := [(line, s.now + 1)] }
def idle : State := pkg group
def isOk (x : SrcAns × State) (v : Nat) (s : State) : Bool := match x with
  | (.ok w p, r) => decide (w = v ∧ p = false ∧ r = s)
  | _ => false
def isAt (x : TAns × State) (a : Nat) (s : State) : Bool := match x with
  | (.ok b _, r) => decide (a = b ∧ r = s)
  | _ => false
/-- Pairs of WAIT in s8 on: kinds 0, 1 (sync word 0 of the own scratchpad, generation 3), 2 (watermark 15), 5 and 4. -/
def waiting (gen mark now : Nat) (a : SVal) : State := onUi (fun u => { u with pend := 4, mask := 6 }) (onTeam (fun m => { m with
    scratch := Mem.store [] 0 8 (2 * 3), marks := setAt m.marks 15 { Watermark.idle with state := 1, mark := 50 } })
  { oneLane 0 0 with cur := put [(16, a), (8, num (1 * 2 ^ 60 + 0xF80000)), (9, num gen), (10, num (2 * 2 ^ 60 + 15)), (11, num mark),
      (12, num (5 * 2 ^ 60)), (13, num now), (14, num (4 * 2 ^ 60)), (15, num 2)] group })
theorem witness_Waits : ∀ x ∈ ([(3, 51, 1001, num 0), (2, 50, 1000, num 1), (2 ^ 16 + 3, 2 ^ 63, 0, num (2 ^ 64 - 1))] : List (Nat × Nat × Nat × SVal)),
    let s := waiting x.1 x.2.1 x.2.2.1 x.2.2.2; let t := s.cur;
    (t.getS 16).p = false ∧ (∀ i < 8, (t.getRun 8 i).p = false) ∧ t.liveLog = []
    ∧ (∀ i < 4, ((t.getRun 8 (2 * i)).v.extractLsb' 60 4).toNat = [1, 2, 5, 4].getD i 0)
    ∧ (t.getRun 8 0).v.extractLsb' 32 28 = 0 ∧ okIs (scratchAddr s t.team (BitVec.ofNat 64 ((t.getRun 8 0).v.extractLsb' 0 32).toNat) 8) (2, 0) = true
    ∧ (t.getRun 8 2).v.extractLsb' 4 56 = 0 ∧ (t.getRun 8 4).v.extractLsb' 0 60 = 0 ∧ (t.getRun 8 6).v.extractLsb' 0 60 = 0
    ∧ ((s.marksOf t.team).getD 15 Watermark.idle).state = 1 ∧ (s.ctxOf t).ui.pend &&& (s.ctxOf t).ui.mask = 4
    ∧ ready (.wait 8 16 0 false) s ∧ ready (.wait 8 16 2 true) s ∧ ready (.wait 8 16 3 true) s := by unfold ready; decide +kernel
theorem witness_Waits_memory : ∀ k ∈ [3, 6], let s := mapped 0x800 7 { idle with cur := put [(8, num (k * 2 ^ 60 + 0x40000)), (9, num 7)] group };
    (s.cur.getRun 8 0).v.extractLsb' 57 3 = 0 ∧ (s.cur.getRun 8 0).v.extractLsb' 0 6 = 0 ∧ heldBy (s.marksOf s.cur.team) 0 0 0x40000 8 = .free
    ∧ isOk (coreRead s s.cur.core (s.slotOf s.cur) false 0x40000 8) 7 s = true
    ∧ isAt (xlatNow s (dieOf s.cur.core) (s.slotOf s.cur) 0x40000 .read false) 0x40000 s = true ∧ isLocal s (0x40000 / 128) = true
    ∧ ready (.wait 8 16 0 false) s := by unfold ready; decide +kernel
def onAborted : State := onTeam (fun m => { m with marks := setAt m.marks 3 { Watermark.idle with state := 4, mark := 9 } })
  { idle with cur := put [(8, num (2 * 2 ^ 60 + 3))] group }
theorem witness_Waits_aborted : let s := onAborted; let t := s.cur;
    ((t.getRun 8 0).v.extractLsb' 60 4).toNat = 2 ∧ (t.getRun 8 0).v.extractLsb' 4 56 = 0 ∧ (t.getRun 8 1).p = false
    ∧ ((s.marksOf t.team).getD 3 Watermark.idle).state = 4 ∧ noneOlder s ∧ ready (.wait 8 16 0 true) s := by
  unfold ready noneOlder; decide +kernel
/-- A launch record at 0x40000 with its completion block at 0x40040: KENTRY 0x10000, one cluster of one team of one group. -/
def record : Nat := 0x10000 + 2 ^ 128 * (1 + 2 ^ 16 + 2 ^ 32 + 2 ^ 48 + 2 ^ 52) + 2 ^ 192 * 96 + 2 ^ 448 * 0x40040
def launching (lr : Bool) (rec waits : Nat) : State := let s := mapped 0x800 (BitVec.ofNat 1024 rec) { idle with
    cur := put [(5, num 0x40000), (6, num 0x40020), (7, bad)] group, grids := [{ grid with r := { placedRec with lr := lr } }] };
  onCtx (fun c => { c with lport := List.replicate waits 0 }) s
theorem witness_Launches : ∀ lr, ∀ n ∈ [63, 64], ∀ r ∈ [record, 0], let s := launching lr r n; ready (.launch 1 5) s ∧ noneOlder s
    ∧ (s.cur.getS 7).p = true ∧ ready (.launch 1 7) s ∧ (s.cur.getS 6).p = false ∧ (s.cur.getS 6).v.extractLsb' 0 6 ≠ 0
    ∧ (s.cur.getS 5).p = false ∧ (s.cur.getS 5).v.extractLsb' 0 6 = 0 ∧ s.gridOf s.cur = some { grid with r := { placedRec with lr := lr } }
    ∧ grid.port = false ∧ (s.ctxOf s.cur).lport.length = n ∧ (s.ctx (s.slotOf s.cur)).pdeny = none := by
  unfold ready noneOlder; decide +kernel
theorem witness_Launches_record : release .span (launching true record 63) = (true, launching true record 63)
    ∧ (match launchAt (launching true record 63) 0 0 team.marks 0x40000 false with
      | (.ok g, r) => decide (g.r.cblk = 0x40040 ∧ r.cur = (launching true record 63).cur)
      | _ => false) = true
    ∧ launchAt (launching true 0 63) 0 0 team.marks 0x40000 false = (.refused refusal 0, launching true 0 63) := by decide +kernel
/-- The group has presented its LAUNCH before, as the first or behind another. -/
theorem witness_Launches_again : ∀ l ∈ [[1], [7, 1]], let s := onCtx (fun c => { c with launches := l }) (launching true record 63);
    (s.ctx (s.slotOf s.cur)).launches.contains s.cur.uid = true
    ∧ ((s.ctx (s.slotOf s.cur)).launches.findIdx? fun u => u == s.cur.uid) = some (l.length - 1)
    ∧ (launching true record 63).ctx 0 = { (launching true record 63).ctx 0 with launches := [] } := by decide +kernel
theorem witness_Launches_dispose : ready (.swrp .fqcmd 4) (pkg handler) ∧ (handler.getS 4).p = false := by unfold ready; decide +kernel
/-- A sync word at offset `off` of the scratchpad: mode, EXPECT, COUNT; s5 its address, s4 a word with bits to be zero. -/
def syncWord (off mode expect count : Nat) : State := onTeam (fun m => { m with
    scratch := Mem.store [] off 8 (2 ^ 63 * mode + 2 ^ 40 * expect + 2 ^ 17 * count + 2 * 0xFFFF) })
  { oneLane 0 0 with cur := put [(5, num (0xF80000 + off)), (6, num (2 ^ 63 + 2 ^ 40)), (4, num (2 ^ 39))] group }
theorem witness_SyncWords : ∀ x ∈ ([(0, 1, 1, 0), (4088, 1, 2 ^ 23 - 1, 2 ^ 23 - 2), (8, 1, 2 ^ 23 - 1, 0), (8, 1, 0, 0), (8, 1, 3, 3), (8, 0, 3, 1)] :
      List (Nat × Nat × Nat × Nat)), let s := syncWord x.1 x.2.1 x.2.2.1 x.2.2.2; let t := s.cur;
    (∃ m ∈ s.teams, s.team? t.team = some m ∧ (∀ y ∈ s.teams, y.id = m.id → y = m) ∧ m.exited = false
      ∧ heldBy m.marks 1 0 x.1 8 = .free ∧ Mem.load m.scratch x.1 8 = 2 ^ 63 * x.2.1 + 2 ^ 40 * x.2.2.1 + 2 ^ 17 * x.2.2.2 + 2 * 0xFFFF)
    ∧ t.liveLog = [] ∧ (t.getS 5).p = false ∧ okIs (scratchAddr s t.team (t.getS 5).v 8) (t.team, x.1) = true ∧ x.1 % 8 = 0
    ∧ ready (.swinit 5 6) s ∧ (t.getS 6).p = false ∧ (t.getS 6).v.extractLsb' 0 40 = 0 ∧ ready (.swinit 5 4) s
    ∧ (t.getS 4).p = false ∧ (t.getS 4).v.extractLsb' 0 40 ≠ 0 ∧ ready (.bara 31 5 true) s ∧ ready (.bara 1 5 false) s
    ∧ ready (.bard 1 5) s := by unfold ready; decide +kernel
/-- A copy of the team above into its scratchpad: 8 units of 4 bytes from offset 0x100 on, with watermark 3. -/
def landing : Copy := ⟨11, 2, 0, 4, 0, 0x300000, [0, 0, 0], [0, 0, 0, 0, 0], [0, 0, 0, 0, 0], ⟨0x40000, 0, 2, 1, 0, 0, [8], [4]⟩,
  ⟨0xF80100, 1, 2, 1, 0, 0, [8], [4]⟩, 0, [(31, 0, false)], [], [], [], Ev.none, Ev.none, 0, .landing, none, none, none, none, true, false⟩
theorem witness_Watermarks : ∀ st ∈ [0, 1, 2, 3, 4], let s := onTeam (fun m => { m with marks := setAt m.marks 15 { Watermark.idle with
      state := BitVec.ofNat 3 st, lo := 2 ^ 58 - 1, hi := 2 ^ 58 - 1, mark := 2 ^ 58 - 1 } }) idle;
    (∃ m ∈ s.teams, s.team? s.cur.team = some m ∧ (∀ y ∈ s.teams, y.id = m.id → y = m) ∧ m.marks.length = 16
      ∧ (m.marks.getD 15 Watermark.idle).state.toNat = st ∧ (m.marks.getD 15 Watermark.idle).lo < 2 ^ 58)
    ∧ (25 : SReg).val + 4 ≤ 29 ∧ ready (.wmrd 25 15) s ∧ ready (.wmrd 0 0) s ∧ ready (.wmclr 15) s ∧ ready (.wmabort 15) s ∧ s.copies = [] := by
  unfold ready; decide +kernel
theorem witness_Watermarks_abort : let s : State := { idle with copies := [landing] };
    s.copies.find? (fun c => c.w = 3 && (c.bound s).contains s.cur.team) = some landing ∧ ready (.wmabort 3) s := by
  unfold ready; decide +kernel

/-- A layout record: of a space, of one dimension of 8 elements of 4 bytes. -/
def layout (base space tb : Nat) : Nat := base + 2 ^ 64 * (space + 4 + 2 * 256 + tb * 65536) + 2 ^ 128 * 8 + 2 ^ 256 * 4
/-- s8 is the control word of a copy between the records 1 and 2 of the table at 0x40000, with watermark 3. -/
def copying (ctl mark dst : Nat) (p : LaneMask) : State := mapped 0x801
  (BitVec.ofNat 1024 (layout 0x60000 0 0 + 2 ^ 512 * dst)) (onTeam (fun m => { m with
    marks := setAt m.marks 3 { Watermark.idle with state := BitVec.ofNat 3 mark } })
  { idle with
    cur := { put [(8, num ctl), (9, num 1)] (vec [(10, word 0), (20, word 0)] group) with preds := List.replicate 32 ⟨p, 0⟩ }
    grids := [{ grid with r := { placedRec with ltbase := 0x40040, scrb := 0x2000 } }] })
theorem witness_CopyIssue_none : let s := copying 0 0 0 0; ready (.cpy 8 1 (.v 10) (.v 20)) s ∧ (s.cur.getP 1).v = 0 ∧ s.cur.stream = false
    ∧ s.cur.core < 320 ∧ s.slotOf s.cur < s.ctxs.length ∧ (s.ctx (s.slotOf s.cur)).cpyseq.length = 320 := by unfold ready; decide +kernel
theorem witness_CopyIssue_control : ∀ c ∈ ([2 ^ 40, 2 ^ 34, 2 ^ 32, 6 * 2 ^ 29 + 2 ^ 25] : List Nat), let s := copying c 0 0 (1 <<< 95);
    (s.cur.mask.getLsbD 95 && (s.cur.getP 1).v.getLsbD 95) = true ∧ (∀ K < 95, (s.cur.getP 1).v.getLsbD K = false) ∧ (s.cur.getS 8).p = false
    ∧ (∀ i < 5, (s.cur.lane (10 + i) 95).p = false ∧ (s.cur.lane (20 + i) 95).p = false) ∧ ready (.cpy 8 1 (.v 10) (.v 20)) s ∧ noneOlder s
    ∧ (s.cur.getS 8).v.toNat = c ∧ (∀ b ∈ ([24, 26, 27, 28] : List Nat), (s.cur.getS 8).v.getLsbD b = false) := by
  unfold ready noneOlder; decide +kernel
/-- What CopyIssue asks of the records, the checks and the claims, for a copy of lane 0. -/
def issues (s : State) (ctl : Dword) (src dst : Layout) : Bool :=
  let t := s.cur;
  let n : State := { s with cur := { t with cc := { t.cc with nl := false } } };
  match coreRead n 0 0 false 0x40080 64 with
  | (.ok sv false, s1) => match coreRead s1 0 0 false 0x400C0 64 with
    | (.ok dv false, s2) => match copyCheck s2 ctl [0, 0, 0] [0, 0, 0, 0, 0] [0, 0, 0, 0, 0] sv dv with
      | .ok (a, b, ms) => match claimEngines s2 (((if a.space = 2 then [t.team] else [])
          ++ (if b.space = 2 then ms.filterMap (memberTeam s2 t.team) else [])).filter fun x =>
            !((s2.team? x).map Team.exited).getD true) with
        | (none, s3) => decide (a = src ∧ b = dst ∧ s1.slotOf t = s.slotOf t ∧ s3.cur = n.cur ∧ s3.now = s.now ∧ s3.ctxs = s.ctxs
            ∧ s3.gridOf t = s.gridOf t ∧ s3.slotOf t = s.slotOf t ∧ (∀ m ∈ s3.teams, m.marks.length = 16)
            ∧ (s3.teams.map Team.id).Nodup ∧ slotsUsed s3 0 + slotsWanted s3 0 < 8
            ∧ heldBy (s.marksOf t.team) 0 0 0x40080 64 = .free ∧ heldBy (s.marksOf t.team) 0 0 0x400C0 64 = .free
            ∧ overwrites s3 { landing with id := s3.seq } = false ∧ (ms = [0] ∨ ms = [31]))
        | _ => false
      | .error _ => false
    | _ => false
  | _ => false
theorem witness_CopyIssue : ∀ st ∈ [0, 1, 2, 3], let s := copying 0x300801 st (layout 0xF80100 1 0) (1 <<< 0);
    (s.cur.mask.getLsbD 0 && (s.cur.getP 1).v.getLsbD 0) = true ∧ (s.cur.getS 8).p = false ∧ ready (.cpy 8 1 (.v 10) (.v 20)) s
    ∧ s.cur.releasedCore = true ∧ issues s (s.cur.getS 8).v ⟨0x60000, 0, 2, 1, 0, 0, [8, 0, 0, 0, 0], [4, 0, 0, 0, 0]⟩
      ⟨0xF80100, 1, 2, 1, 0, 0, [8, 0, 0, 0, 0], [4, 0, 0, 0, 0]⟩ = true := by unfold ready; decide +kernel
/-- An engine held by team h with a queue. -/
def engine (h : Option Nat) (n : Nat) (t : Thread) : State := onCore (fun k => { k with
  engine := { Engine.free with holder := h, queue := List.replicate n ⟨5, 9, true, 0, 0, 0, 0, none, 0, 0⟩ } }) (pkg t)
theorem witness_MatrixIssue : ∀ x ∈ ([(none, 0), (some 2, 0), (some 2, 7), (some 9, 1)] : List (Option Nat × Nat)), ∀ f ∈ ([0x4044, 0x8066, 0, 7] : List Nat),
    let s := engine x.1 x.2 (put [(4, num 0x1F0FFF), (5, num 0x40000)] { group with mfw := BitVec.ofNat 64 f }); let t := s.cur;
    s.team? t.team = some team ∧ (∀ z ∈ s.teams, z.id = team.id → z = team) ∧ team.core = t.core ∧ t.core < s.cores.length
    ∧ (s.core t.core).engine.holder = x.1 ∧ (s.core t.core).engine.queue.length < 8 ∧ noneOlder s ∧ t.stream = false
    ∧ (∀ w ∈ team.marks, w.state = 0) ∧ ready (.mma 3 7 7) s ∧ ready (.mmaL 2 0 1) s ∧ ready (.mzero 0) s ∧ ready .msync s
    ∧ ready (.mfmt 4) s
    ∧ (t.getS 4).p = false ∧ (t.getS 4).v.extractLsb' 12 4 = 0 ∧ (t.getS 4).v.extractLsb' 21 43 = 0
    ∧ (t.getS 4).v.extractLsb' 16 5 = 31 ∧ ready (.mpert 4 5) s ∧ (t.getS 5).v.extractLsb' 57 7 = 0 ∧ (t.getS 5).v.extractLsb' 0 2 = 0
    ∧ streamOn s t.core = none ∧ (s.core t.core).seqwait = [] ∧ ready (.seqgo 5) s := by
  unfold ready noneOlder; decide +kernel
theorem witness_MatrixIssue_release : release .pkg (engine none 0 group) = (true, engine none 0 group)
    ∧ ((engine none 0 group).cores.all fun k => k.engine.queue.all fun o => o.uid != 1) = true := by decide +kernel
theorem witness_MatrixIssue_sync : let s := onCore (fun k => { k with engine := { Engine.free with queue := [⟨5, 1, true, 0, 0, 0, 0, none, 0, 0⟩] } }) idle;
    ready .msync s ∧ (s.cores.any fun k => k.engine.queue.any fun o => o.uid == s.cur.uid) = true := by unfold ready; decide +kernel
-- indexes 0 to 95 × 43 + 10 = 4095; 4096 in lane 95; rows 0, 63 and 64
theorem witness_MatrixRows : ∀ b ∈ [10, 11], ∀ r ∈ [0, 63, 64], let s := engine (some 2) 0 (put [(8, num b), (9, num 43), (6, num r)] group);
    let t := s.cur; let e := (s.core t.core).engine; s.team? t.team = some team ∧ team.core = t.core ∧ t.core < s.cores.length ∧ t.shaped
    ∧ t.stream = false ∧ e.holder = some t.team ∧ e.queue = [] ∧ Mem.wf e.acc = true ∧ Mem.wf e.tiles = true
    ∧ (∀ w ∈ team.marks, w.state = 0) ∧ (t.getS 8).p = false ∧ (t.getRun 8 1).p = false ∧ (t.getRun 8 1).v ≠ 0 ∧ noneOlder s
    ∧ (lanesOf t.mask).length = 96 ∧ ((t.getS 8).v.toNat + 95 * (t.getRun 8 1).v.toNat < 4096 ↔ b = 10)
    ∧ t.wbase + (62 : VReg).val + 2 ≤ t.allot ∧ (t.getS 6).p = false ∧ (t.getS 6).v.toNat = r
    ∧ ready (.acrd 62 2 true 8) s ∧ ready (.acwr 63 3 false 8) s ∧ ready (.acrd 62 3 true 8) s ∧ ready (.tbr 63 7 6) s
    ∧ ready (.tbw 0 0 6) s := by unfold ready noneOlder Thread.shaped; decide +kernel
def handling (hg : Option Nat) (inh : Bool) : State :=
  onUi (fun u => { u with hg := hg, inh := inh }) { idle with cur := put [(5, num 63), (6, num 2)] group }
theorem witness_UserInterrupts : ∀ hg ∈ [none, some 1, some 4], ∀ inh, let s := handling hg inh;
    let t := s.cur; s.slotOf t < s.ctxs.length ∧ (s.ctx (s.slotOf t)).ui.cnt.length = 64 ∧ (s.ctx (s.slotOf t)).ui.data.length = 64
    ∧ (t.getS 5).p = false ∧ (t.getS 6).p = false ∧ t.sregs.length = 32 ∧ noneOlder s ∧ (s.ctx (s.slotOf t)).ui.hg = hg
    ∧ (s.ctx (s.slotOf t)).ui.inh = inh ∧ ready (.uipoll 31) s ∧ ready (.uiack 28 5) s ∧ ready .uiret s := by
  unfold ready noneOlder; decide +kernel
/-- The toll table has one entry, in the cache, for vectors 0 to 2 of any kernel; vector 1 has a rule. -/
def tolled (v : Nat) : State := onCtx (fun c => { c with toll := [(0, 0xF, 7)], ui := { c.ui with rule := setAt c.ui.rule 1 0x83 } })
  { idle with cur := put [(5, num v), (6, num 9)] group }
def ownTable (v : Nat) : Option Bool × State := tollVector (tolled v) 0 3 0x4000 v
theorem witness_UserInterrupts_own : ∀ v ∈ [0, 1], let s := tolled v; let t := s.cur; let r := (ownTable v).2;
    (t.getS 5).p = false ∧ (t.getS 6).p = false ∧ (t.getS 5).v.extractLsb' 6 58 = 0 ∧ (t.getS 5).v.extractLsb' 0 6 = BitVec.ofNat 6 v
    ∧ (s.ctx 0).arrivals = []
    ∧ s.slotOf t = 0 ∧ (s.ctx 0).status = .loaded ∧ ctxBusy s 0 = false ∧ (grid.r.kentry.extractLsb' 2 55).toNat = 0x4000
    ∧ (ownTable v).1 = some true ∧ (((s.ctx 0).ui.rule.getD v 0).getLsbD 7 = true ↔ v = 1) ∧ r.cur = t ∧ r.saved = []
    ∧ r.ctx 0 = { s.ctx 0 with toll := (r.ctx 0).toll } ∧ r.ctxs.length = s.ctxs.length ∧ s.slotOf t = r.slotOf t ∧ noneOlder s
    ∧ ready (.uisend 5 6) s ∧ ready (.uisendw 5 6) s := by unfold ready noneOlder; decide +kernel
theorem witness_UserInterrupts_release : release .pkg (tolled 1) = (true, tolled 1) := by decide +kernel
/-- A send to context 7 at endpoint 1. -/
def sending : State := spanned (put [(5, num (3 + 2 ^ 6 + 2 ^ 14 + 7 * 2 ^ 24)), (6, num 9)] group)
theorem witness_UserInterrupts_remote : let s := sending; let x := (s.cur.getS 5).v; x.extractLsb' 40 24 = 0 ∧ x.extractLsb' 6 8 = 1
    ∧ x.extractLsb' 14 10 = 1 ∧ present s 1 = true ∧ isHost s 1 = false ∧ deadCell s (cellOf s 1) = false ∧ s.isolated = false
    ∧ s.self = 0 ∧ (s.ctx (s.slotOf s.cur)).pdeny = none ∧ ready (.uisend 5 6) s ∧ ready (.uisendw 5 6) s := by unfold ready; decide +kernel
theorem witness_UserInterrupts_path : pathsTo sending (spanId sending) 1 ≠ [] := by rw [pathsTo_up _ rfl rfl]; decide
theorem witness_UserInterrupts_span : release .span sending = (true, sending) := by decide +kernel

/-! ### Events -/

/-- Between steps: no thread checked out. -/
def rest (s : State) : State := { s with cur := Thread.blank, out := false }
def span : State := rest { spanned group with threads := [group] }
theorem witness_EventsRun : span.up ∧ (span.booted = true ∨ span.recovery = true) ∧ State.reset.booted = false ∧ State.reset.recovery = false
    ∧ (∃ t ∈ span.threads, span.thread? t.uid = some t) ∧ (span.thread? 77).isNone = true := by unfold State.up; decide +kernel
theorem witness_ManagementEvents : span.up ∧ span.ages.length = 6 ∧ span.meas.length = 8 ∧ span.ppmask.length = 60 ∧ span.celltab.length = 1024
    ∧ span.moves = [] ∧ span.migctl.extractLsb' 1 3 = 0 ∧ span.tlbiOpen = [] ∧ (5 < 6 ∧ 59 < 60 ∧ 319 < span.cores.length)
    ∧ span.attcmd.getLsbD 62 = false ∧ (∀ x ∈ span.cores, x.test = .none) := by unfold State.up; decide +kernel
def testing (t : TestState) : State := onCore (fun k => { k with test := t }) (rest { pkg group with teams := [], clusters := [], grids := [] })
theorem witness_ManagementEvents_test : (∃ d, (testing (.draining 5)).core 0 = { Core.blank with test := .draining d } ∧ d = 5)
    ∧ (testing (.draining 5)).cores.any (fun x => x.test != .none) = true ∧ coreFree (testing (.draining 5)) 0 = true ∧ (testing (.testing 9)).core 0 = { Core.blank with test := .testing 9 }
    ∧ (let s := { testing (.draining 5) with now := 25000005 }; s.core 0 = { Core.blank with test := .draining 5 } ∧ 5 + 25000000 ≤ s.now) :=
  ⟨⟨5, by decide +kernel⟩, by decide +kernel, by decide +kernel, by decide +kernel, by decide +kernel⟩
theorem witness_ManagementEvents_more : ({ span with tlbiOpen := [3] } : State).tlbiOpen ≠ [] ∧ (2 ^ 62 : Dword).getLsbD 62 = true
    ∧ (3 : Dword).extractLsb' 0 2 = 3 ∧ (0x70001 : Dword).extractLsb' 0 2 = 1 ∧ (2 : Dword).extractLsb' 0 2 = 2 := by decide +kernel
/-- Cells 0 and 1 in states a and b, the package a monitor if asked. -/
def cells (a b : Nat) (mon : Bool) : State := { span with
  spancfg := if mon then 0x20000000 ||| (0x400000 ||| 0x6000000080000000 <<< 0) else 0x400000
  cstate := [BitVec.ofNat 64 a, BitVec.ofNat 64 (b + 7 * 2 ^ 32)] ++ List.replicate 254 0 }
def stateOf (s : State) (c : Nat) : Nat := ((s.cstate.getD c 0).extractLsb' 0 3).toNat
theorem witness_CellEvents : ∀ b ∈ [0, 1, 2, 3, 11], let s := cells 1 b false; s.up ∧ s.cstate.length = 256 ∧ stateOf s 1 = b % 8
    ∧ ((s.cstate.getD 1 0).getLsbD 3 = true ↔ b = 11) ∧ (s.cstate.getD 1 0).extractLsb' 32 16 = 7 ∧ s.self ∉ monitors s
    ∧ cellOf s 1 = 1 ∧ cellOf s s.self = 0 ∧ (s.celltab.getD 1 0).getLsbD 0 = true ∧ 1 ≤ (s.spancfg.extractLsb' 21 10).toNat
    ∧ (s.celltab.getD 3 0).getLsbD 0 = false ∧ s.isolated = false ∧ s.copies = [] ∧ s.reqs = [] ∧ s.home = [] ∧ s.suspicions = [] := by
  unfold State.up; decide +kernel
theorem witness_CellEvents_own : let s := cells 1 1 false; stateOf s 0 = 1 ∧ cellOf s s.self = 0
    ∧ (s.cstate.getD 0 0).extractLsb' 32 16 = 0 := by decide +kernel
/-- Monitors are endpoints 0 and 1. -/
def monitored (b : Nat) : State := { cells 1 b false with spancfg := 0x400000 ||| 0x6000000000000000 ||| (1 <<< 41) }
theorem witness_CellEvents_monitor : ∀ b ∈ [1, 2], let s := monitored b; s.up ∧ s.self ∈ monitors s ∧ 1 ∈ monitors s ∧ stateOf s 1 = b
    ∧ 1 ≤ (s.spancfg.extractLsb' 21 10).toNat ∧ s.suspicions = [] := by unfold State.up; decide +kernel
theorem witness_CellEvents_links : 0 < span.links.length ∧ (span.links.getD 0 (false, 0)).1 = true
    ∧ (({ span with links := [(false, 7)] } : State).links.getD 0 (false, 0)) = (false, 7) := by decide +kernel
/-- A request of endpoint 1 for line 0x800 of this package, which has metadata word m, its page of a class. -/
def asking : HomeReq := ⟨9, 1, 0x800, false, 0, 0, false, none, false⟩
def homed (m : Dword) (cls : Nat) : State := { span with meta_ := if m = 0 then [] else [(0x800, m)], pages := [(4, BitVec.ofNat 64 (cls * 256))] }
theorem witness_HomeEvents : ∀ m ∈ [0, 0x8000, 0x8080000000000000], ∀ cls ∈ [0, 1], let s := homed (BitVec.ofNat 64 m) cls;
    s.up ∧ isRegLine s 0x800 = false ∧ isLocal s 0x800 = true ∧ present s 1 = true ∧ deadCell s (cellOf s 1) = false ∧ s.isolated = false
    ∧ asking.ep ≠ s.self ∧ cellOf s 1 = 1 ∧ cellOf s s.self = 0 ∧ (s.meta_.map Prod.fst).Pairwise (· < ·) ∧ s.home = [] ∧ s.ecc = []
    ∧ s.eccBusy = [] ∧ s.moves = [] ∧ s.l2w = [] ∧ s.l2get 0x800 none = none ∧ asking.cen = false ∧ Mem.wf s.mem = true
    ∧ nextWrite s 0x800 ≤ s.now ∧ ¬ nextWrite { s with written := [(0x800, s.now + 1)] } 0x800 ≤ s.now
    ∧ metaOf s 0x800 = BitVec.ofNat 64 m ∧ admits s (pclass s 0x800) 1 = true := by unfold State.up; decide +kernel

-- classes that do not admit, owners in another cell, and requests that are discarded
theorem witness_HomeEvents_denied : let s := { homed 0 1 with ppmask := List.replicate 60 0 };
    s.up ∧ metaOf s 0x800 = 0 ∧ admits s (pclass s 0x800) 1 = false ∧ present s 1 = true ∧ isLocal s 0x800 = true := by
  unfold State.up; decide +kernel
/-- Endpoint 3 is of cell 2, which owns the line. -/
def owned : State := { homed 0x8080000000000000 0 with celltab := [5, 0x101, 3, 0x201] ++ List.replicate 1020 0, spancfg := 0x600000 }
theorem witness_HomeEvents_owned : let m := metaOf owned 0x800; owned.up ∧ m.extractLsb' 62 2 = 2 ∧ m.extractLsb' 54 8 = 2
    ∧ deadCell owned 2 = false ∧ recallEps owned 1 [2] = [3] ∧ owned.home = [] ∧ present owned 1 = true
    ∧ admits owned (pclass owned 0x800) 1 = true := by unfold State.up; decide +kernel
theorem witness_HomeEvents_discarded : isLocal span (2 ^ 35) = false ∧ isRegLine span (2 ^ 35) = false ∧ present span 900 = false
    ∧ deadCell (cells 1 3 false) (cellOf (cells 1 3 false) 1) = true ∧ cellOf span 1 ≠ cellOf span span.self := by decide +kernel
/-- A line of endpoint 1 in the L2 in each state that a recall may meet. -/
def foreign : Recall := ⟨1, 5, 2 ^ 35 + 3⟩
def holdingLine (st : L2St) : State := { span with l2 := [⟨2 ^ 35 + 3, st, none, 1000, false, 9, 998, 0⟩] }
theorem witness_Recalls : (∀ st ∈ [L2St.m, .o, .e, .s], let s := holdingLine st; s.up ∧ deadCell s (cellOf s foreign.home) = false
      ∧ s.isolated = false ∧ s.recalls = [] ∧ s.l2get foreign.line none = some ⟨2 ^ 35 + 3, st, none, 1000, false, 9, 998, 0⟩
      ∧ 1000 ≤ s.now ∧ 998 + 2 ≤ s.now ∧ s.l2w = [])
    ∧ span.up ∧ span.recalls = [] ∧ span.l2get foreign.line none = none := by unfold State.up; decide +kernel
/-- The group has the handler role, with vector 2 pending. -/
def role : State := onUi (fun u => { u with hg := some 1, pend := 4, mask := 4, vec := 0x9000 }) (rest { pkg group with threads := [group] })
theorem witness_CoreEvents : role.up ∧ role.out = false ∧ group ∈ role.threads ∧ (∀ x ∈ role.threads, x.uid = group.uid → x = group)
    ∧ group.stream = false ∧ group.mode = .user ∧ group.wait = .none ∧ group.log = [] ∧ role.slotOf group < role.ctxs.length
    ∧ group.sregs.length = 32 ∧ (role.ctx 0).ui.hg = some group.uid ∧ (role.ctx 0).ui.inh = false
    ∧ group.uid ∉ (role.core group.core).seqwait ∧ (role.ctx 0).ui.pend &&& (role.ctx 0).ui.mask ≠ 0 ∧ (role.ctx 0).ui.pend &&& (role.ctx 0).ui.mask &&& (role.ctx 0).ui.wide = 0 := by
  unfold State.up; decide +kernel
theorem witness_CoreEvents_pin : ∀ e ∈ [1000, 1001], let s := onTeam (fun m => { m with pinEnd := some e }) role;
    s.up ∧ s.out = false ∧ { team with pinEnd := some e } ∈ s.teams ∧ (∀ x ∈ s.teams, x.id = 2 → x = { team with pinEnd := some e }) := by
  unfold State.up; decide +kernel
def pending : Thread := { group with active := false, readyAt := 952 }
theorem witness_CoreEvents_swap : let s := rest { pkg group with threads := pending :: List.replicate 7 { group with uid := 8, active := true } };
    s.up ∧ s.out = false ∧ pending ∈ s.threads ∧ (∀ x ∈ s.threads, x.uid = pending.uid → x = pending) ∧ pending.active = false
    ∧ pending.wait = .none ∧ pending.stall = false ∧ pending.idle = false ∧ pending.ending = false ∧ pending.readyAt + 48 ≤ s.now
    ∧ (∀ x ∈ s.threads, x.core = pending.core → x.stream = false → x.uid ≠ pending.uid → x.active = true)
    ∧ (s.threads.filter fun x => x.core = pending.core && !x.stream && x.active).length < 8 := by unfold State.up; decide +kernel
theorem witness_CoreEvents_matrix : ∀ z, let s := onCore (fun k => { k with engine := { Engine.free with
      queue := [⟨5, 9, z, 0x4044, 3, 0, 1, none, 0, 0⟩, ⟨6, 9, true, 0, 0, 0, 0, none, 0, 0⟩] } }) role;
    s.up ∧ 0 < s.cores.length ∧ Mem.wf (s.core 0).engine.acc = true
    ∧ (s.core 0).engine.queue = [⟨5, 9, z, 0x4044, 3, 0, 1, none, 0, 0⟩, ⟨6, 9, true, 0, 0, 0, 0, none, 0, 0⟩] := by unfold State.up; decide +kernel
/-- The copy above between two places of the scratchpad, each unit in a line of its own, about to land its first and its last
unit, and then done. -/
def within (next : Nat) (st : CopyStage) : Copy := { landing with
  src := { landing.src with base := 0xF80800, space := 1 }, dst := { landing.dst with stride := [128] }, next := next, stage := st }
def copies (c : Copy) : State := { oneLane 0 0 with cur := Thread.blank, out := false, threads := [group], copies := [c] }
theorem witness_CoreEvents_copy : ∀ n ∈ [0, 7], let c := within n .landing; let s := copies c; s.up ∧ s.out = false ∧ team ∈ s.teams
    ∧ c ∈ s.copies ∧ (∀ x ∈ s.copies, x.id = c.id → x = c) ∧ c.team = team.id ∧ c.into = [(31, 0, false)] ∧ team.exited = false
    ∧ c.sent = [] ∧ c.carry = [] ∧ c.src.space ≠ 2 ∧ 0 < c.dst.whole ∧ c.dst.elem c.dstO n % 128 + c.dst.whole ≤ 128
    ∧ (c.next + 1 < c.dst.count → c.dst.elem c.dstO (n + 1) / 128 ≠ c.dst.elem c.dstO n / 128) ∧ Mem.wf team.scratch = true ∧ c.aborting = none ∧ c.frozen = none ∧ (∀ b ∈ ([24, 25, 27, 28] : List Nat), c.ctl.getLsbD b = false) ∧ c.dst.space = 1
    ∧ c.dst.swz = 0 ∧ team.marks.length = 16 ∧ copyBehind s c = false ∧ c.next < c.dst.count
    ∧ (match copyUnit s c n with | (.ok v p _, r) => decide (v = 0 ∧ p = false ∧ r = s) | _ => false) = true
    ∧ (within 8 .stamped).stage = .stamped ∧ teamRuns (copies (within 8 .stamped)) 2 = true := by unfold State.up; decide +kernel

/-! ### Encodings and steps -/

theorem witness_RoundTrip : Instr.wf .user (.vadd 63 63 (.s 31)) = true ∧ Instr.wf .sup (.halt 31) = true
    ∧ Instr.wf .seq (.srd (.s 31) (.launchinfo)) = true := by decide +kernel
theorem witness_DecodeOnlyEncodings : (match decode .user 0xA01FFFFF, decode .sup 0xF9803200 with
    | .ok _, .ok i => decide (i = .halt 4)
    | _, _ => false) = true := by decide +kernel
/-- SADDI s3, s3, -1, placed in the reset state (log 33): the premises of StepRunsDecoded. -/
noncomputable def placed : State := State.reset.withFetchWord 32 0x163C7FFF
theorem witness_StepRunsDecoded : (∀ e ∈ placed.agenda, placed.now < e.1) ∧ (∀ x ∈ placed.threads, x.ending = false)
    ∧ nextPlace placed = some 0 ∧ (∀ x ∈ placed.threads, x.unseen 0 = false)
    ∧ (match pickTurn 0 placed with
      | (some t, r) =>
        let u := pumpLog none (r.checkOut t)
        !trapDue u.cur && !handlerDue u u.cur && u.cur.acq.isNone && (match fetch u with
          | (.word w, v) => decide (w = 0x163C7FFF ∧ v.cur.wait = .none) && (match decode v.cur.decodeMode w with
            | .ok i => decide (i = .saddi 3 3 0x1FFF)
            | .error _ => false)
          | _ => false)
      | _ => false) = true
    ∧ (match decode (placedMode 0x163C7FFF) 0x163C7FFF with
      | .ok i => decide (i = .saddi 3 3 0x1FFF)
      | .error _ => false) = true := by decide +kernel
theorem witness_StepRunsDecoded_error : (match decode .user 0xFFFFFFFF with
    | .error _ => true
    | .ok _ => false) = true := by decide +kernel
theorem witness_StepRunsDecoded_event : let s := { span with agenda := [(1000, .migWindowBoundary)] };
    (1000 : Nat) ≤ s.now ∧ (match exec .migWindowBoundary { s with agenda := [] } with | .next q => decide (q.now = s.now) | _ => false) = true := by
  decide +kernel
theorem witness_StepRunsDecoded_round : let s := { span with threads := [{ group with stall := true }], agenda := [(1001, .dispatchPlace)] };
    (∀ e ∈ s.agenda, s.now < e.1) ∧ (∀ x ∈ s.threads, x.ending = false ∧ x.stall = true ∧ waitPasses s.now x = false) := by decide +kernel
theorem witness_StepGoesOn : State.reset.settled ∧ span.settled := by unfold State.settled; decide +kernel
/-- A boot image with a body of one zero byte, whose signature is good for a key whose first factor is one; a bad one. -/
def image : BootImage := ⟨0x82ac2eec7a72ac40bc4bbd8b885530620755e3ac4e15d121c491ab4e9257f108,
  0x2158d1a997b199ebfdcb727bb977b8be8f9f27f7e5c7c60c61fbbea43f0e7de9, 0x6e340b9cffb37a989ca544e6bb780a2c78901d3fb33738768511a30617afa01d,
  0x6e340b9cffb37a989ca544e6bb780a2c78901d3fb33738768511a30617afa01d, [0]⟩
theorem signature_good : p256Verify image.keyX.toNat image.keyY.toNat image.sigR.toNat image.sigS.toNat (sha256 image.body) = true := by
  decide +kernel
-- the fused key hash is free (log 3): where it is that of the image's key, the image is accepted
theorem witness_ResetState_accepted (h : sha256 (beBytes 32 image.keyX.toNat ++ beBytes 32 image.keyY.toNat) = Config.keyHash) :
    bootAccepts image = true := by
  unfold bootAccepts; rw [h, signature_good]; simp
theorem witness_ResetState_refused : bootAccepts { image with sigR := 0 } = false := by
  have h : p256Verify image.keyX.toNat image.keyY.toNat 0 image.sigS.toNat (sha256 image.body) = false := by decide +kernel
  unfold bootAccepts
  rw [show (({ image with sigR := 0 } : BootImage).sigR.toNat) = 0 from rfl]
  exact (congrArg (fun b => _ && b) h).trans (Bool.and_false _)

/-! ### States for the clauses that go further -/

-- the group waits for an older load before its poisoned mask word traps (15 R338)
theorem witness_PoisonedMaskTraps_waits : let s := pkg (put [(2, bad)] { group with log := [logged (.load 4 .s) (.vec 9 1) 0] });
    ¬ noneOlder s ∧ ready (.sadd 29 2 3) s ∧ ready (.ssel 31 3 2) s ∧ ready (.slhi 30 0) s ∧ masks s.cur 29 = true
    ∧ (s.cur.getS 2).p = true ∧ ready (.pcnt 31 0) s := by unfold ready noneOlder; decide +kernel
-- code 9 is served by the handler, and with its bit of EXTMASK set by the host
theorem witness_SysAndBreak_logged : ∀ x ∈ [0, 0x200],
    let s := onCtx (fun c => { c with extmask := BitVec.ofNat 32 x }) (pkg { group with log := [logged (.load 4 .s) (.vec 9 1) 0] });
    s.cur.stream = false ∧ s.cur.mode = .user ∧ s.team? s.cur.team = some team ∧ s.grid? team.grid = some grid
    ∧ grid.slot < s.ctxs.length ∧ (s.ctx grid.slot).trapvec ≠ 0 ∧ ((s.ctx grid.slot).extmask.getLsbD 9 = true ↔ x = 0x200) := by
  decide +kernel
/-- A package with a translation of context 0 of each kind, and an invalidation of endpoint `ep`. -/
def translated : State := { onCore (fun k => { k with tlb := [page], tlb2 := [{ page with slot := 1 }] }) span with
  wcache := [⟨0, 0, 2, 0, 0x10001⟩] }
def inval (ep : Nat) (k : InvKind) : InvMsg := ⟨4, ep, 0, k⟩
theorem witness_InvalidationSent_arrives : translated.up ∧ (inval 0 .all).ep = translated.self
    ∧ (let m := inval 1 (.page 0x20008); present translated m.ep = true ∧ deadCell translated (cellOf translated m.ep) = false
      ∧ translated.isolated = false ∧ (translated.ctx 0).num = m.ctx ∧ (translated.ctx 0).status ≠ .unknown) := by
  unfold State.up; decide +kernel
def toEp1 (cut : Bool) : State := { spanned (put [(4, num 0x100000000), (5, num 0x20000)] handler) with isolated := cut }
theorem witness_InvalidationSent_path : pathsTo (toEp1 false) (spanId (toEp1 false)) 1 ≠ [] := by
  rw [pathsTo_up _ rfl rfl]; decide
theorem witness_InvalidationSent_far : ∀ cut ∈ [false, true], let s := toEp1 cut; ready (.tlbinv 4 5) s ∧ s.self = 0
    ∧ (deadCell s (cellOf s 1) || s.isolated && cellOf s 1 != cellOf s s.self) = cut := by unfold ready; decide +kernel
theorem witness_InvalidationSent_ack : let v : Inval := ⟨8, inval 1 .context, [], [], [], [], [], [], []⟩;
    let s : State := { span with invals := [v] }; s.up ∧ v ∈ s.invals ∧ (∀ x ∈ s.invals, x.id = 8 → x = v) ∧ v.m.ep ≠ s.self
    ∧ present s v.m.ep = true ∧ deadCell s (cellOf s v.m.ep) = false ∧ s.isolated = false
    ∧ s.cores.all (fun k => k.sb.isEmpty && k.loads.isEmpty) = true ∧ s.l2w = [] ∧ s.walks = [] ∧ s.copies = [] ∧ s.devReads = []
    ∧ (∀ t ∈ s.threads, t.fetching = none) ∧ s.out = false ∧ ∀ v ∈ s.invals, v.id ≠ 9 := by unfold State.up; decide +kernel
-- slot 63, class 5, counters one below the top and at it
theorem witness_RoundTowardZero : let s := { span with ctxs := List.replicate 64 { Ctx.unknown with fx := { FxRegs.zero with
      cnt := List.replicate 24 0xFFFFFFFE, ctl := 0x80000000FFFFFFFF } } };
    63 < s.ctxs.length ∧ (s.ctx 63).fx.cnt.length = 24 ∧ Ev.none ≠ ⟨1, 0, 0, 0⟩ ∧ role.gridOf group = some grid := by decide +kernel
theorem witness_ScratchEffect_fadd : let s := oneLane 95 4092; let t := s.cur; ready (.spatomFadd 63 5 (.v 2)) s
    ∧ t.wbase + (63 : VReg).val < t.allot ∧ s.grid? team.grid = some { grid with r := { placedRec with scrb := 4096 } }
    ∧ ((t.getS 5).v + (t.getX (.v 2) 95).v.signExtend 64).toNat % 4 = 0 := by unfold ready; decide +kernel
-- entries that give all, no user access, no write and no fetch; and none, with what a walk found
theorem witness_LoadHits_translation : (∀ e ∈ [page, { page with u := false }, { page with w := false }, { page with x := false }],
      let s := onCore (fun k => { k with tlb := [e], itlb := [e] }) idle;
      (s.core 0).tlb.find? (fun e => e.covers 0 0x2FFFF) = some e ∧ (s.core 0).itlb.find? (fun e => e.covers 0 0x20000) = some e)
    ∧ (idle.core 0).tlb.find? (fun e => e.covers 0 0x20000) = none ∧ (idle.core 0).tlb2.find? (fun e => e.covers 0 0x20000) = none
    ∧ (let w : Walked := ⟨0, 0, 2, PAGE_FAULT, 3⟩; w.core = 0 ∧ w.slot = 0 ∧ w.page = 0x20000 / 65536 ∧ w.code = PAGE_FAULT)
    ∧ sbWaits (withPage group) 0 1024 = false := by decide +kernel
/-- Whether an entry of a level is malformed, and whether the place that a leaf gives is refused (01 R23 to R25). -/
def pteBad (level : Nat) (p : Dword) : Bool :=
  if p.getLsbD 1 then 2 ≤ level || p.extractLsb' 10 6 != 0 || (p.getLsbD 5 && level == 1) || 2 ≤ (p.extractLsb' 6 2).toNat
    || (level == 1 && p.extractLsb' 16 13 != 0)
  else level == 0 || p.extractLsb' 2 14 != 0
def pteRefused (s : State) (p : Dword) : Bool :=
  let pa := (p.extractLsb' 16 36).toNat * 65536
  let ep := pa / 2 ^ 42
  !present s ep || (isHost s ep && p.extractLsb' 6 2 == 0)
    || (!isHost s ep && (decide (0xC000000000 ≤ pa % 2 ^ 42) || p.extractLsb' 6 2 == 1))
/-- Entries and the level they stand at: malformed ones; leaves that are refused, of an absent package, of a host, of no Spaind
page; leaves of 64 KiB, 2 MiB and 512 MiB; pointers to a host, to no package and to a node here. -/
theorem witness_LoadHits_walk : (0 : Dword).getLsbD 0 = false
    ∧ (∀ x ∈ ([(0x23, 1), (0x3, 2), (0x403, 0), (0x83, 0), (0x10003, 1), (1, 0), (5, 3)] : List (Nat × Nat)),
      (BitVec.ofNat 64 x.1 : Dword).getLsbD 0 = true ∧ pteBad x.2 (BitVec.ofNat 64 x.1) = true)
    ∧ (∀ x ∈ ([(900 * 2 ^ 42 + 3, 0), (2 * 2 ^ 42 + 3, 1), (0xC000000003, 0), (0x43, 0)] : List (Nat × Nat)), let p : Dword := BitVec.ofNat 64 x.1;
      p.getLsbD 0 = true ∧ p.getLsbD 1 = true ∧ pteBad x.2 p = false ∧ pteRefused span p = true)
    ∧ (∀ x ∈ ([(0x2001F, 0), (0x2003F, 0), (0x2000001F, 1)] : List (Nat × Nat)), let p : Dword := BitVec.ofNat 64 x.1;
      p.getLsbD 0 = true ∧ p.getLsbD 1 = true ∧ pteBad x.2 p = false ∧ pteRefused span p = false)
    ∧ (∀ x ∈ ([2 * 2 ^ 42 + 1, 900 * 2 ^ 42 + 1, 0x10001] : List Nat), let p : Dword := BitVec.ofNat 64 x; let pa := (p.extractLsb' 16 36).toNat * 65536;
      p.getLsbD 0 = true ∧ p.getLsbD 1 = false ∧ pteBad 3 p = false
      ∧ ((present span (pa / 2 ^ 42) = true ∧ isHost span (pa / 2 ^ 42) = false ∧ pa % 2 ^ 42 < 2 ^ 39) ↔ x = 0x10001))
    ∧ (mapped 0 0 idle).wcache.find? (fun w => w.die == 0 && w.slot == 0 && w.level == 2 && w.va == 0) = some ⟨0, 0, 2, 0, 0x10001⟩
    ∧ takeExpired idle 0x200 false = (none, idle) ∧ span.wcache = [] := by decide +kernel
/-- A state that a read of line 0x200, which the L2 has, leaves as it is. -/
theorem witness_LoadHits_node : (match physRead (mapped 0x200 9 idle) 0 0x10000 8 false false with
    | (.data d p, r) => decide (d.extractLsb' 0 64 = 9 ∧ p = false ∧ r = mapped 0x200 9 idle)
    | _ => false) = true := by decide +kernel
theorem witness_RemoteIssue_answers : stream0.flags = (3, false) :: [(4, true), (5, false)] ∧ 9 ≠ 3
    ∧ ({ stream0 with flags := [(3, false), (4, false)] } : StreamEnt).flags = (3, false) :: [(4, false)]
    ∧ (∀ f ∈ ([(4, false)] : List (Nat × Bool)), f.2 = false ∧ f.1 ≠ 3)
    ∧ (let r : OutReq := ⟨6, 1, .ntr, 0, 5000, .lanes 1 7 3, ⟨6, 0, 0, false, 0, 0, false, none, false⟩, false, false, false⟩;
      ∃ a : RemoteAns, (({ span with reqs := [r] } : State).reqs.find? fun q => q.id == a.id && !q.ended) = some r ∧ r.for_ = .lanes 1 7 3 ∧ a.ok = false)
    ∧ (let r : OutReq := ⟨6, 1, .ntr, 0, 5000, .close 0 0 0 0 3 2, ⟨6, 0, 0, false, 0, 0, false, none, false⟩, false, false, false⟩;
      let s := onCtx (fun c => { c with streams := [{ stream0 with closing := some 6 }, stream0] }) { span with reqs := [r] };
      (s.reqs.find? fun q => q.id == 6) = some r ∧ r.for_ = .close 0 0 0 0 3 2 ∧ 0 < s.ctxs.length ∧ (s.ctx 0).streams.length = 2) :=
  ⟨rfl, by decide, rfl, by decide, ⟨⟨6, false, 0, false⟩, by decide +kernel⟩, by decide +kernel⟩
-- pair 1 of two: poisoned, of a reserved kind, with a reserved bit, unaligned, of a misaligned word and of no contents; pair 0 is fine
def waitingPair (a : SVal) (x : Nat) : State := { oneLane 0 0 with cur := put [(8, num 0), (9, num 0), (10, num x), (11, a), (16, num 5)] group }
theorem witness_Waits_pairs : let bads : List (SVal × Nat) := [(bad, 0), (num 0, 7 * 2 ^ 60), (num 0, 5 * 2 ^ 60 + 1),
        (num 0, 2 * 2 ^ 60 + 16), (num 0, 3 * 2 ^ 60 + 4), (num 0, 6 * 2 ^ 60 + 8), (num 0, 2 ^ 60 + 0xF80004), (num 0, 2 ^ 60 + 0xF90000)];
    (∀ x ∈ bads, let s := waitingPair x.1 x.2; noneOlder s ∧ ready (.wait 8 16 1 false) s ∧ (s.cur.getRun 8 0).p = false ∧ (s.cur.getRun 8 1).p = false
      ∧ (s.cur.getRun 8 0).v = 0 ∧ (s.cur.getS 16).p = false ∧ (s.cur.getRun 8 2).v.toNat = x.2 ∧ (s.cur.getRun 8 3).p = x.1.p)
    ∧ okIs (scratchAddr (waitingPair (num 0) 0) 2 0xF80004 8) (2, 4) = true
    ∧ (match scratchAddr (waitingPair (num 0) 0) 2 0xF90000 8 with | .error _ => true | .ok _ => false) = true := by
  unfold ready noneOlder; decide +kernel
-- watermark 3 is active over the word of kind 3, aborted, or free; without a translation the read finds a fault
def waitingWord (st mark : Nat) : State := onTeam (fun m => { m with marks := setAt m.marks 3 { Watermark.idle with
    state := BitVec.ofNat 3 st, lo := 0x40000, hi := 0x40007, mark := mark } })
  (mapped 0x800 7 { idle with cur := put [(8, num (3 * 2 ^ 60 + 0x40000)), (9, num 7), (16, num 70)] group })
theorem witness_Waits_held : heldBy ((waitingWord 1 0x40000).marksOf 2) 0 0 0x40000 8 = .wait
    ∧ heldBy ((waitingWord 4 0x40000).marksOf 2) 0 0 0x40000 8 = .aborted 0x40000
    ∧ heldBy ((waitingWord 1 0x40008).marksOf 2) 0 0 0x40000 8 = .free ∧ (waitingWord 1 0x40000).cur.log = []
    ∧ (waitingWord 1 0x40000).cur.acq = none ∧ ((waitingWord 1 0x40000).cur.getS 16).v.toNat = 70
    ∧ isAt (xlatNow (waitingWord 1 0x40000) 0 0 0x40000 .read false) 0x40000 (waitingWord 1 0x40000) = true := by decide +kernel
theorem witness_Waits_fault : let s : State := { waitingWord 0 0 with wcache := [⟨0, 0, 2, 0, 0⟩] };
    (match xlatNow s 0 0 0x40000 .read false with | (.fault x, r) => decide (x.code = PAGE_FAULT ∧ r = s) | _ => false) = true := by
  decide +kernel
theorem witness_Launches_held : let s := onTeam (fun m => { m with marks := setAt m.marks 3 { Watermark.idle with
      state := 1, lo := 0x40000, hi := 0x40007, mark := 0x40000 } }) (launching true record 63);
    (match launchAt s 0 0 (s.marksOf s.cur.team) 0x40000 false with | (.held w, r) => decide (w = 3 ∧ r.cur = s.cur ∧ (r.team? 2).isSome = true) | _ => false) = true
    ∧ (match launchAt { s with celltab := s.celltab, wcache := [⟨0, 0, 2, 0, 0x10001⟩], l2 := [] } 0 0 [] 0x40000 false with
      | (.pending, r) => decide (r.cur = s.cur)
      | (.refused _ _, r) => decide (r.cur = s.cur)
      | _ => false) = true := by decide +kernel
/-- A sequencer stream of a cluster of two members, on cores 0 and 1, that hold their engines. -/
def members : List Team := [team, { team with id := 5, core := 1, member := 1 }]
def gang : State := { pkg { stream with cluster := true, mfw := 0x4044, acq := none } with
  teams := members, clusters := [⟨3, 4, 0, [(0, 2), (1, 5)], false⟩]
  cores := mapFrom (fun i c => if i < 2 then { c with engine := { Engine.free with holder := some (if i == 0 then 2 else 5) } } else c) 0 (pkg stream).cores }
theorem witness_MatrixIssue_cluster : let at_ (z : Nat) : Team := if z = 2 then team else { team with id := 5, core := 1, member := 1 };
    ready (.mma 3 7 7) gang ∧ ready (.mzero 0) gang ∧ gang.cur.stream = true ∧ gang.cur.cluster = true
    ∧ gang.clusterOf gang.cur.team = some ⟨3, 4, 0, [(0, 2), (1, 5)], false⟩
    ∧ (∀ z ∈ [2, 5], gang.team? z = some (at_ z) ∧ (at_ z).exited = false ∧ (at_ z).core < gang.cores.length
      ∧ (gang.core (at_ z).core).engine.holder = some z ∧ (gang.core (at_ z).core).engine.queue.length < 8
      ∧ ∀ w ∈ (at_ z).marks, w.state = 0)
    ∧ ([2, 5].map fun z => (at_ z).core).Nodup ∧ (∀ z ∈ gang.teams, z.id = team.id → z = team) := by unfold ready; decide +kernel
theorem witness_EventsRun_recovery : let s := { State.reset with recovery := true }; s.recovery = true ∧ s.booted = false := by decide +kernel
-- entry 0 is loaded and entry 63 holds nothing; the commands busy and not; a page that is homed here
theorem witness_ManagementEvents_commands : (span.ctx 0).status = .loaded ∧ (span.ctx 63).status = .unknown ∧ 63 < span.ctxs.length
    ∧ ({ span with ctxcmd := 1 <<< 62, evcmd := 1 <<< 62, pgcmd := 1 <<< 61 } : State).ctxcmd.getLsbD 62 = true
    ∧ span.ctxcmd.getLsbD 62 = false ∧ span.evcmd.getLsbD 62 = false ∧ span.pgcmd.getLsbD 61 = false
    ∧ ((0x40 : Dword).extractLsb' 0 8).toNat = 64 ∧ (∀ i, i < 64 → (span.ctx i).status = .loaded → (span.ctx i).num ≠ 9)
    ∧ localPage span 5 = true ∧ localPage span (2 ^ 26) = false ∧ (span.pages.map Prod.fst).Pairwise (· < ·)
    ∧ (0x20000 : Dword).extractLsb' 57 7 = 0 ∧ (1 <<< 57 : Dword).extractLsb' 57 7 ≠ 0 ∧ span.ecc = [] ∧ span.eccFix = [] ∧ span.raslog.length < 32
    ∧ 5 ∉ span.eccBusy ∧ 5 ∈ ({ span with eccBusy := [5] } : State).eccBusy := by decide +kernel
theorem witness_CellEvents_majority : let s : State := { monitored 2 with suspicions := [⟨1, 0, 0⟩, ⟨1, 1, 0⟩], now := 100000 };
    s.up ∧ s.self ∈ monitors s ∧ (monitors s).length < 2 * (s.suspicions.filter fun x => x.cell == 1 && decide (x.since + 100000 ≤ s.now)).length
    ∧ stateOf s 1 = 2 ∧ 1 < 256 := by unfold State.up; decide +kernel
-- the last link up goes down: no path is left to the other cell
theorem witness_CellEvents_down : let s : State := { cells 1 1 false with links := (true, 7) :: List.replicate 23 (false, 0) };
    s.up ∧ (s.links.getD 0 (false, 0)).1 = true ∧ stateOf s 1 = 1 ∧ (present s 1 = true ∧ cellOf s 1 = 1 ∧ 1 ≠ s.self)
    ∧ s.raslog.length < 32 := by unfold State.up; decide +kernel
/-- A request of this package for a line of endpoint 1; and one at this home that awaits two answers. -/
def asked (k : HomeKind) (f : ReqFor) : OutReq := ⟨6, 1, k, 2 ^ 35 + 3, 1000, f, ⟨6, 0, 2 ^ 35 + 3, false, 0, 0, false, none, false⟩, false, false, false⟩
def awaiting : HomeTxn := ⟨8, .rdx, asking, [1, 3], true, 0, none, false, [], false, 0, none, false, 990, false⟩
theorem witness_Recalls_requests : ∀ q ∈ [asked .rds (.line 0 false), asked .prf (.line 0 false), { asked .rds (.line 0 false) with due := 1001 },
      asked .ntr (.send 1 4 0 0 none)],
    let s : State := { span with reqs := [q] }; s.up ∧ (∀ y ∈ s.reqs, y.id = q.id → y = q) ∧ q ∈ s.reqs ∧ q.ended = false
    ∧ (∀ y ∈ s.reqs, y.id ≠ 7) ∧ s.l2get q.line none = none ∧ (∀ y ∈ s.reqs, y.waits = false) ∧ s.l2 = []
    ∧ (s.now < q.due ↔ q.due = 1001) ∧ (s.ctx 0).status = .loaded := by unfold State.up; decide +kernel
theorem witness_Recalls_home : let s : State := { owned with home := [awaiting, { awaiting with id := 9, begun := false, wait := [] }] };
    s.up ∧ deadCell s (cellOf s 3) = false ∧ awaiting ∈ s.home ∧ (∀ y ∈ s.home, y.id = awaiting.id → y = awaiting) ∧ 3 ∈ awaiting.wait
    ∧ (∃ e ∈ awaiting.wait, e ≠ 3) ∧ s.jobs = [] ∧ deadCell (cells 1 3 false) (cellOf (cells 1 3 false) 1) = true := by
  unfold State.up; decide +kernel
theorem witness_Recalls_moves : localPage span (2 ^ 26) = false ∧ span.migctl.getLsbD 0 = false
    ∧ (∀ y ∈ ({ span with moves := [⟨5, 2 ^ 26, 0, 0, 0, 0, 5, [3], []⟩] } : State).moves, y.page = 5 → y.step ≠ 5 ∨ y.acks ≠ [])
    ∧ (inval 0 .context).ep = span.self := by decide +kernel
/-- An entry of the store buffer with one lane of the group's store, unsent and sent, in a core with room and with none. -/
def entry (sent : Bool) : SbEntry := ⟨21, 0x800, 0, false, false, 0x40000, 5, 0xFF, false, false, none, 968, sent, [⟨1, 7, laneBit 95⟩], none, false, false, []⟩
def reads (n : Nat) : List LoadReq := (List.range n).map fun i => ⟨1, 8, 0, 0, 2 ^ 35 + i, 0, false, false, .normal, 0⟩
def buffered (sent : Bool) (loads : Nat) : State := onCore (fun k => { k with sb := [entry sent], loads := reads loads })
  (rest { pkg group with threads := [{ group with log := [logged (.store 8 .normal) .none 0] }] })
theorem witness_CoreEvents_buffer : ∀ x ∈ ([(false, 0), (false, 64), (true, 0)] : List (Bool × Nat)), let s := buffered x.1 x.2;
    s.up ∧ s.out = false ∧ 0 < s.cores.length ∧ entry x.1 ∈ (s.core 0).sb ∧ (∀ y ∈ (s.core 0).sb, y.id = 21 → y = entry x.1)
    ∧ (∀ y ∈ (s.core 0).sb, y.line = 0x800 → y = entry x.1) ∧ (replayFull s 0 = true ↔ x.2 = 64) ∧ (entry x.1).atom = none
    ∧ (∃ t ∈ s.threads, t.uid = 1 ∧ ∀ y ∈ s.threads, y.uid = 1 → y = t) ∧ s.copy? 1 = none := by unfold State.up; decide +kernel
theorem witness_CoreEvents_walk : let w : Walk := ⟨30, 0, 0, 4, 990, false, false, none⟩;
    let s : State := { mapped 0x800 7 span with walks := [w], wcache := [⟨0, 0, 2, 0, 0x10001⟩, ⟨0, 0, 1, 0, 0x20001⟩, ⟨0, 0, 0, 4, 0x4001F⟩] };
    s.up ∧ s.out = false ∧ w ∈ s.walks ∧ (∀ x ∈ s.walks, x.id = 30 → x = w) ∧ 0 < s.cores.length
    ∧ (match walkNow s 0 0 0x40000 with | (.ok e, r) => decide (e.pa = 0x40000 ∧ e.size = 65536 ∧ r = s) | _ => false) = true := by
  unfold State.up; decide +kernel
theorem witness_CoreEvents_grid : let s : State := { rest (pkg group) with teams := [], clusters := [] };
    s.up ∧ s.out = false ∧ grid ∈ s.grids ∧ (∀ x ∈ s.grids, x.id = grid.id → x = grid) ∧ grid.err = false ∧ grid.stage = .running
    ∧ grid.placed = grid.clusters ∧ s.clusters = [] ∧ s.saved = [] ∧ s.copies = [] := by unfold State.up; decide +kernel
/-- A store of the group to offset 0 of the scratchpad of member 1, free or behind watermark 3, which is aborted. -/
def visiting (aborted : Bool) : State :=
  let e := { logged (.spStore 4) .none 0 with addrs := List.replicate 96 0 }
  let w : Watermark := if aborted then { Watermark.idle with state := 4, space := 1, hi := 7 } else Watermark.idle
  let m : Team := { team with id := 5, core := 1, member := 1, marks := setAt team.marks 3 w }
  rest { pkg group with threads := [{ group with log := [e] }], scratchMsgs := [⟨40, 1, 7, 95, 5⟩], teams := [team, m] }
theorem witness_CoreEvents_visit : ∀ a, let s := visiting a; s.up ∧ s.out = false ∧ (⟨40, 1, 7, 95, 5⟩ : ScratchMsg) ∈ s.scratchMsgs
    ∧ (∃ t ∈ s.threads, t.uid = 1 ∧ (∀ x ∈ s.threads, x.uid = 1 → x = t) ∧ ∃ y ∈ t.log, (∀ x ∈ t.log, x.id = 7 → x = y) ∧ y.id = 7
      ∧ y.op ≠ .spAtom .fadd ∧ ((y.addrs.getD 95 0).extractLsb' 0 19).toNat = 0 ∧ memSize y.op = 4)
    ∧ (∃ m ∈ s.teams, m.id = 5 ∧ m.exited = false ∧ heldBy m.marks 1 0 0 4 = if a then .aborted 0 else .free) := by
  unfold State.up; decide +kernel

/-! ### What holds of every state -/

/-- The invariant, as a check. -/
def invCheck (s : State) : Bool :=
  let numbers (l : List Nat) : Bool := decide (l.Nodup ∧ ∀ n ∈ l, n < s.seq)
  let engine (e : Engine) : Bool := Mem.wf e.acc && Mem.wf e.tiles
  let ctx (c : Ctx) : Bool := decide (c.ui.cnt.length = 64 ∧ c.ui.data.length = 64 ∧ c.fx.cnt.length = 24 ∧ c.cpyseq.length = 320)
  (Mem.wf s.mem && decide ((s.meta_.map Prod.fst).Pairwise (· < ·)) && decide ((s.pages.map Prod.fst).Pairwise (· < ·)))
  && (s.everyTeam.all (fun m => Mem.wf m.scratch && decide (m.marks.length = 16) && m.engine.all engine) && s.cores.all fun k => engine k.engine)
  && (s.everyThread.all (fun t => decide (t.sregs.length = 32)) && numbers (s.everyThread.map Thread.uid))
  && (numbers (s.everyTeam.map Team.id) && numbers (s.everyCluster.map Cluster.id) && s.saved.all fun c => decide (c.cluster.id = c.id))
  && (decide (s.ctxs.length = 64) && s.ctxs.all ctx && decide (s.cores.length = 320))
  && decide (s.cstate.length = 256 ∧ s.celltab.length = 1024 ∧ s.ppmask.length = 60 ∧ s.meas.length = 8 ∧ s.ages.length = 6
    ∧ s.links.length = 24)
theorem inv_of {s : State} (h : invCheck s = true) : s.Inv := by
  simp only [invCheck, Bool.and_eq_true, List.all_eq_true, decide_eq_true_eq, Option.all_eq_true] at h
  obtain ⟨⟨⟨⟨⟨⟨⟨h1, h2⟩, h3⟩, h4, h5⟩, h6, h7⟩, ⟨h8, h9⟩, h10⟩, ⟨h11, h12⟩, h13⟩, h14⟩ := h
  exact ⟨h1, h2, h3, fun m hm => ⟨(h4 m hm).1.1, (h4 m hm).1.2, fun e he => (h4 m hm).2 e he⟩, h5, h6, h7, h8, h9, h10, ⟨h11, h12⟩, h13, h14⟩
/-- A saved cluster of a team like the one above with one group, which waits as told, and in a watermark's state. -/
def savedBy (w : Wait) (st : Nat) : SavedCluster := ⟨3, ⟨3, 4, 0, [(0, 2)], false⟩, [{ team with
  marks := List.replicate 16 { Watermark.idle with state := BitVec.ofNat 3 st }, engine := some Engine.free }], [{ group with wait := w }], [], [], false,
  (0, 0), false, true, []⟩
def withSaved (w : Wait) (st : Nat) : State := { span with
  teams := [], clusters := [], threads := [{ group with uid := 5, team := 6 }], saved := [savedBy w st], seq := 50 }
theorem witness_StepGoesOn_inv : State.reset.Inv ∧ (withSaved .yield 1).Inv ∧ (withSaved .yield 1).settled := by
  refine ⟨inv_of (by decide +kernel), inv_of (by decide +kernel), ?_⟩
  unfold State.settled; decide +kernel

/-! ### Arrivals from another span -/

def far : StreamId := ⟨7, 3, 9⟩
/-- Context entry 0 is context 9 with key 0x77; a put, a flag, a get and an atomic for it of the key given. -/
def arriving (j : List (Nat × RemoteJob × Nat)) : State := { onCtx (fun c => { c with num := 9, key := 0x77 }) (mapped 0x9000 5 (rest (spanned group))) with
  threads := [], jobs := j, epochs := [⟨far, 9, 3, [1, 1, 1, 1]⟩, ⟨far, 9, 2, [4, 5, 6, 7]⟩], seq := 50 }
def putMsg (key : Word) : PutMsg := ⟨4, far, 9, key, 0x40040, 0x1234, 0xF0, false, 2, 3⟩
def flagMsg (counts : List Nat) : FlagMsg := ⟨5, far, 9, 0x77, 0x40048, 0x99, false, 2, counts⟩
theorem witness_RemoteIssue_arrivals : let s := arriving []; s.booted = true ∧ s.recovery = false ∧ shunnedSrc s far = false ∧ s.jobs = []
    ∧ (s.epochs.find? fun y => y.src == far && y.dctx == 9 && y.epoch == 2).map DestEpoch.counts = some [4, 5, 6, 7]
    ∧ (flagMsg [4, 5, 6, 7]).counts = [4, 5, 6, 7] ∧ (flagMsg [0, 0, 0, 0]).counts ≠ [4, 5, 6, 7]
    ∧ (s.ctx 0).status = .loaded ∧ (s.ctx 0).num = 9 ∧ (s.ctx 0).key = 0x77 ∧ (∀ j, j < 64 → (s.ctx j).num = 9 → (s.ctx j).status ≠ .unknown → j = 0)
    ∧ isAt (xlatNow { s with jobs := [(50, .put (putMsg 0x77), 0)], seq := 51 } 0 0 0x40040 .write false) 0x40040
      { s with jobs := [(50, .put (putMsg 0x77), 0)], seq := 51 } = true
    ∧ (∀ k ∈ [1, 2], let s := arriving [(8, .put (putMsg 0x77), k), (9, .flag (flagMsg [4, 5, 6, 7]), k)];
      (8, .put (putMsg 0x77), k) ∈ s.jobs ∧ ∀ x ∈ s.jobs, x.2.1 = .put (putMsg 0x77) → x = (8, .put (putMsg 0x77), k))
    ∧ shunnedSrc { s with isolated := true } far = true := by decide +kernel
theorem witness_RemoteIssue_refused : ∀ j, ((arriving []).ctx j).status = .loaded → ((arriving []).ctx j).num = 9 → ((arriving []).ctx j).key ≠ 0x78 := by
  have h : ∀ j, j < 64 → ((arriving []).ctx j).status = .loaded → ((arriving []).ctx j).key ≠ 0x78 := by decide +kernel
  intro j a _
  rcases Nat.lt_or_ge j 64 with hj | hj
  · exact h j hj a
  · have : (arriving []).ctx j = Ctx.unknown := by
      have l : (arriving []).ctxs.length = 64 := by decide +kernel
      simp [State.ctx, List.getD, List.getElem?_eq_none (l ▸ hj)]
    rw [this] at a; cases a

/-! ### A full replay buffer, the launch port, and a grid's end -/

/-- As many requests of core 0 are out as its replay buffer holds, or one fewer. -/
def crowded (n : Nat) (s : State) : State := { onCore (fun k => { k with prfs := List.range n }) s with
  reqs := (List.range n).map fun i => ⟨i, 1, .prf, 2 ^ 35 + i, 5000, .line 0 false, ⟨i, 0, 2 ^ 35 + i, false, 0, 0, false, none, false⟩, false, false, false⟩ }
theorem witness_Waits_full : ∀ n ∈ [63, 64], let s := crowded n (waitingWord 4 0x40008);
    (replayFull s s.cur.core = true ↔ n = 64) ∧ s.cur.core < s.cores.length ∧ s.cur.log = [] ∧ ready (.wait 8 16 0 true) s := by
  unfold ready; decide +kernel
theorem witness_Launches_full : ∀ n ∈ [63, 64], let s := crowded n (onCtx (fun c => { c with launches := [1] }) (launching true record 63));
    (replayFull s s.cur.core = true ↔ n = 64) ∧ ready (.launch 1 5) s ∧ (s.ctx (s.slotOf s.cur)).launches.contains s.cur.uid = true
    ∧ ((s.ctx (s.slotOf s.cur)).launches.findIdx? fun u => u == s.cur.uid) = some 0 := by unfold ready; decide +kernel
theorem witness_CopyIssue_room : replayFull (copying 0x300801 0 (layout 0xF80100 1 0) (1 <<< 0)) 0 = false := by decide +kernel
/-- A port with n requests, over a line that holds a record; the toll table's first entry admits, or does not. -/
def ported (rec n toll : Nat) : State := onCtx (fun c => { c with lport := List.replicate n 0x40000, toll := [(0, BitVec.ofNat 64 toll, 7)] })
  (mapped 0x800 (BitVec.ofNat 1024 rec) (rest (pkg group)))
theorem witness_Launches_port : ∀ n ∈ [63, 64], let s := ported record n 0x8B;
    let came := s.modCtx 0 fun c => { c with ports := [⟨0, 0x40000, .none⟩] }; let r := tollPort came 0 0;
    s.booted = true ∧ s.recovery = false ∧ 0 < s.ctxs.length ∧ (s.ctx 0).ports = [] ∧ s.self = 0 ∧ ctxBusy s 0 = false ∧ (s.ctx 0).status = .loaded
    ∧ (s.ctx 0).lport.length + (s.ctx 0).launches.length = n ∧ (s.ctx 0).refusing = none ∧ r.1 = some true ∧ r.2 = came := by decide +kernel
theorem witness_Launches_refused : let s := ported record 63 0xB; let came := s.modCtx 0 fun c => { c with ports := [⟨0, 0x40000, .none⟩] };
    (tollPort came 0 0).1 = some false ∧ (tollPort came 0 0).2.ctx 0 = came.ctx 0 ∧ (tollPort came 0 0).2.now = s.now := by decide +kernel
theorem witness_Launches_accept : (match launchAt (ported record 1 0) 0 0 [] 0x40000 true with
      | (.ok _, r) => decide (r.ctxs = (ported record 1 0).ctxs ∧ r.now = 1000)
      | _ => false) = true := by decide +kernel
theorem witness_Launches_bad : (∀ x ∈ ([(0, 0), (record - 2 ^ 192 * 96, 0x40040)] : List (Nat × Dword)), (match launchAt (ported x.1 1 0) 0 0 [] 0x40000 true with
      | (.refused _ b, r) => decide (b = x.2 ∧ r.ctxs = (ported x.1 1 0).ctxs)
      | _ => false) = true)
    ∧ (∀ h ∈ [0, 0x47524B4E + 2 ^ 32 * 5000 + 2 ^ 128 * 0x40040], (match zeroRead 0 0 2 0x40000 64 (ported h 1 0) with
      | (.ok x p, r) => decide (x = h ∧ p = false ∧ r.ctxs = (ported h 1 0).ctxs)
      | _ => false) = true) := by decide +kernel
/-- The grid above at a stage of its end, with every action to do and two outcomes of its posted requests. -/
def endingGrid (st : GridStage) (sync : Option Nat) : Grid := { grid with
  r := { placedRec with cblk := 0x40040, swaddr := 0x40080, tsaddr := 0x400C0, tsval := 0x99, csw := true, cts := true, ciq := true, uiv := 3 }
  stage := st, sync := sync, outcomes := [⟨.timedOut, 5⟩, ⟨.refused, 6⟩] }
def word1 : Dword := 0x80000200_0001FFFE
def endingAt (st : GridStage) (sync : Option Nat) : State := { ported 0 0 0 with
  threads := [], l2 := [], written := [], mem := Mem.store [] 0x40080 8 word1.toNat, grids := [endingGrid st sync]
  graphs := [⟨77, 0, 0x40000, 0x40100, [(0, 1)], [2, 3]⟩] }
def wrote (x : DWAns × State) (s : State) : Bool := match x with
  | (.ok _, r) => decide (r.grids = s.grids ∧ r.graphs = s.graphs ∧ r.now = s.now)
  | _ => false
theorem witness_Launches_actions : (let s := endingAt .fence none; s.reqs = [] ∧ (∀ k ∈ s.cores, k.sb = []) ∧ (∀ k ∈ s.ctxs, k.arrivals = []) ∧ s.l2 = [])
    ∧ wrote (devWrite (endingAt .status none) 0 0 false 0x40040 8 1 none) (endingAt .status none) = true
    ∧ wrote (devWrite (endingAt .stamp none) 0 0 false 0x400C0 8 0x99 none) (endingAt .stamp none) = true
    ∧ wrote (devWrite (endingAt .done none) 0 0 false 0x40100 8 3 none) (endingAt .done none) = true
    ∧ (word1.getLsbD 63 = true ∧ word1.extractLsb' 17 23 < word1.extractLsb' 40 23) := by decide +kernel
theorem witness_Launches_sync : (let s := endingAt .sync none; match devRead s 0 0 false 0x40080 8 with
      | (.ok v p, r) => v == word1.toNat && !p && (match devWrite r 0 0 false 0x40080 8 0 (some ⟨.cas, 0, 8, word1, word1 + 2 ^ 17, false⟩) with
        | (.pending, u) => decide (u.grids = s.grids)
        | _ => false)
      | _ => false) = true
    ∧ (let s := endingAt .sync (some word1.toNat); match devWrite s 0 0 false 0x40080 8 0 (some ⟨.cas, 0, 8, word1, word1 + 2 ^ 17, false⟩) with
      | (.ok v, u) => decide (v = ⟨word1, false⟩ ∧ u.grids = s.grids)
      | _ => false) = true := by decide +kernel

/-! ### Dispatch, eviction, waking, restore, contexts, reports -/

/-- A cluster of the grid above at the head of the queue: a stream or none, one core or two, or more than a die has. -/
def placing (sentry : Dword) (cw : Nat) : State := { span with
  queue := [⟨7, false, 4, 0, 0, 0⟩], grids := [{ grid with r := { placedRec with gx := 3, cw := cw, sentry := sentry, gpt := 2, lastl := 40 } }] }
theorem witness_EventsRun_place : ∀ x ∈ ([(0, 1), (0x50000, 2), (0, 11)] : List (Dword × Nat)), let s := placing x.1 x.2;
    s.booted = true ∧ s.recovery = false ∧ s.placeFrom ≤ s.now ∧ (s.ctx 0).status = .loaded ∧ s.evcmd.getLsbD 62 = false
    ∧ ((findPlace s none x.2 1 ((List.range x.2).map fun i => needOf (s.grids.headD grid) (i == 0))) = if x.2 = 11 then none else some (List.range x.2)) := by
  decide +kernel
def restoring : State := { withSaved .yield 1 with queue := [⟨7, true, 3, 0, 0, 0⟩] }
theorem witness_EventsRun_restore : let s := restoring; let c := savedBy .yield 1; s.booted = true ∧ s.recovery = false ∧ c ∈ s.saved
    ∧ grid ∈ s.grids ∧ grid.err = false ∧ (s.ctx 0).status = .loaded ∧ s.evcmd.getLsbD 62 = false ∧ (∀ m ∈ c.teams, m.exited = false)
    ∧ findPlace s none 1 1 (c.cluster.members.map (restoreNeed grid c)) = some [0]
    ∧ (match loadTeams 0 grid c c.teams s with
      | (.ok xs, u) => decide (xs.map Prod.fst = c.teams ∧ u.queue = s.queue) && xs.all fun x => x.2.2.isEmpty
      | _ => false) = true := by decide +kernel
/-- A cluster that is to be evicted, whose group waits at YIELD; the save pool has n slots. -/
def evicting (n : Nat) : State := { mapped 0x9000 5 span with
  threads := [{ group with wait := .yield }], clusters := [⟨3, 4, 0, [(0, 2)], true⟩]
  ctxs := { Ctx.unknown with status := .loaded, poolcnt := n, poolbase := 0x400000, l3 := [0x10001, 0, 0, 0] } :: List.replicate 63 Ctx.unknown }
theorem witness_EventsRun_evict : ∀ n ∈ [0, 1], let s := evicting n; s.booted = true ∧ s.recovery = false ∧ s.out = false ∧ s.copies = []
    ∧ (s.ctx 0).poolcnt = n ∧ s.teams.filter (fun x => x.cluster == 3) = [team] ∧ s.saved = [] ∧ team.exited = false ∧ team.pinEnd = none
    ∧ (∀ x ∈ s.threads, x.team = 2 → x.ending = false ∧ x.mode = .user ∧ x.wait = .yield) ∧ (n = 1 → freeSlots (s.ctx 0) 1 = [0])
    ∧ (match slotPages s 0 0x400000 64 s with
      | (some (some ps), r) => decide (ps.length = 64 ∧ r = s)
      | _ => false) = true := by decide +kernel
theorem witness_EventsRun_wake : ∀ w ∈ [Wait.yield, .watermark 0 2], let s := withSaved w 1; let c := savedBy w 1; c ∈ s.saved ∧ c.queued = false
    ∧ c.off = true ∧ c.copies = [] ∧ c.threads = [{ group with wait := w }] ∧ (s.ctx 0).status = .loaded ∧ (s.ctx 0).wake = false
    ∧ (s.ctx 0).ui.hg = none ∧ (c.teams.find? fun y => y.member == 0).any (fun m => (m.marks.getD 2 Watermark.idle).state == 1) = true
    ∧ (onCtx (fun c => { c with status := .parked }) s).ctxs.length = 64 := by decide +kernel
/-- A LOAD of entry 1 that is about to read a block of context n, with a reserved bit or none. -/
def loading (n bad : Nat) : State := { span with
  ctxcmd := 0x5000000000010001, mem := Mem.store (Mem.store [] 0x10000 8 (n + bad * 2 ^ 19)) 0x10008 4 10000 }
def loads (s : State) (v : Nat) : Bool := match readCtxBlock 1 0x10000 32 s with
  | (some (some x), u) => decide (x = v ∧ u.ctxs = s.ctxs)
  | _ => false
theorem witness_EventsRun_load : (∀ x ∈ ([(9, 0), (0, 0), (9, 1)] : List (Nat × Nat)), let s := loading x.1 x.2;
      s.ctxcmd.getLsbD 62 = true ∧ s.ctxcmd.extractLsb' 60 2 = 1 ∧ (s.ctxcmd.extractLsb' 0 8).toNat = 1 ∧ (s.ctxcmd.extractLsb' 12 40).toNat * 4096 = 0x10000
      ∧ loads s (x.1 + x.2 * 2 ^ 19 + 10000 * 2 ^ 64) = true ∧ blockInvalid (x.1 + x.2 * 2 ^ 19 + 10000 * 2 ^ 64) = decide (x.2 = 1)
      ∧ ((∃ i, i < 64 ∧ i ≠ 1 ∧ (s.ctx i).status ≠ .unknown ∧ (s.ctx i).num = x.1) ↔ x.1 = 0))
    ∧ (match readCtxBlock 1 0x10000 32 { loading 9 0 with meta_ := [(0x201, 0x8000)] } with
      | (some none, _) => true
      | _ => false) = true := by decide +kernel
/-- A report is being written: words before the i-th are. -/
def reporting (i : Nat) : State := { span with attcmd := BitVec.ofNat 64 (2 ^ 62 + i * 2 ^ 32 + 77), attbuf := 0x10040, attrep := some (5, 0x10040) }
theorem witness_EventsRun_report : (∀ i ∈ [0, 40, 41], (reporting i).attcmd.getLsbD 62 = true ∧ ((reporting i).attcmd.extractLsb' 32 6).toNat = i)
    ∧ span.attrep = none ∧ span.meas.length = 8 ∧ span.celltab.length = 1024
    ∧ (∀ x ∈ ([([], true), ([(0x203, 2000)], false)] : List (List (Nat × Nat) × Bool)),
      (match physWrite { reporting 40 with written := x.1 } 0 (0x10040 + 320) 8 0 false false none with
        | (.done _, _) => x.2
        | (.pending, _) => !x.2
        | _ => false) = true) := by decide +kernel

/-! ### Recovery and page moves -/

theorem witness_ManagementEvents_scrub : span.ecc = [] ∧ span.eccFix = [] ∧ (∀ l ∈ span.eccBusy, regionOf l ≠ 0) ∧ span.home = [] := by decide +kernel

/-- Cell 1 is dead, and owned a line of region 0 or none; a line of the region is busy or not. -/
def scanning (busy : Bool) (m : Dword) : State := { cells 1 3 false with
  regions := [(1, 9), (1, 0), (2, 0)], meta_ := if m = 0 then [] else [(0x800, m)], eccBusy := if busy then [3] else [], seq := 50 }
def ownedBy1 : Dword := 0x8000000000000000 + (BitVec.ofNat 64 1 <<< 54)
theorem witness_CellEvents_scan : stateOf (cells 1 3 false) 1 = 3 ∧ (∀ g ∈ (cells 1 3 false).regions, g.1 ≠ 1)
    ∧ (∀ x ∈ ([(true, 0), (false, 0), (false, ownedBy1.toNat)] : List (Bool × Nat)), let s := scanning x.1 (BitVec.ofNat 64 x.2); (1, 0) ∈ s.regions ∧ s.ecc = [] ∧ s.eccFix = [] ∧ s.home = [] ∧ regionOf 3 = 0
      ∧ regionOf 0x800 = 0 ∧ stateOf s 1 = 3 ∧ metaOf s 0x800 = BitVec.ofNat 64 x.2) := by decide +kernel
theorem witness_CellEvents_clean : let s := { scanning false ownedBy1 with
      home := [⟨40, .dead 1, ⟨40, 0, 0x800, false, 0, 0, false, none, false⟩, [], false, 0, none, false, [], false, 0, none, false, 0, false⟩] }; s.Inv
    ∧ s.recalls = [] ∧ s.jobs = [] ∧ s.l2w = [] ∧ s.l2get 0x800 none = none ∧ nextWrite s 0x800 ≤ s.now ∧ s.self = 0 ∧ metaOf s 0x800 = ownedBy1 :=
  ⟨inv_of (by decide +kernel), by decide +kernel⟩
/-- Page 4 of this package moves to a page of endpoint 1, or of endpoint 5, which is absent; endpoint 1 waits. -/
def moveTo (new step : Nat) : Move := ⟨4, new, 0x30000, 0x40213, 5, 0x70000, step, [], [1]⟩
def movingTo (new step : Nat) : State := { span with
  moves := [moveTo new step], pages := [(4, 0x123456789ABC3FF)], mem := Mem.store [] 0x30000 8 0x40213, migrel := 0x90004, meta_ := [(0x802, 0x4008000000000000)], seq := 50 }
theorem witness_HomeEvents_move : (∀ k ∈ [1, 2, 4, 5], (movingTo (2 ^ 26 + 6) k).Inv) ∧ (∀ k ∈ [1, 2, 4, 5], let s := movingTo (2 ^ 26 + 6) k;
      shunned s 1 = false ∧ s.home = [] ∧ localPage s 4 = true ∧ s.ecc = [] ∧ s.eccFix = [] ∧ s.eccBusy = [] ∧ (∀ m ∈ s.meta_, m.2.getLsbD 63 = false))
    ∧ shunned (movingTo (5 * 2 ^ 26 + 6) 2) 5 = true := by
  refine ⟨fun k hk => inv_of ?_, by decide +kernel⟩
  revert k; decide +kernel
theorem witness_HomeEvents_swap : ∀ x ∈ ([(0x40213, true), (0x40217, false)] : List (Nat × Bool)),
    let s := { movingTo (2 ^ 26 + 6) 4 with mem := Mem.store [] 0x30000 8 x.1 }; (takeExpired s 0x600 true).1 = none ∧ (takeExpired s 0x600 true).2 = s
    ∧ (match deviceStore s (moveTo (2 ^ 26 + 6) 4).swap with
      | (.done v, u) => decide ((v = ⟨0x40213, false⟩ ↔ x.2 = true) ∧ u.moves = s.moves ∧ u.celltab = s.celltab ∧ u.cstate = s.cstate
          ∧ u.isolated = s.isolated ∧ u.spancfg = s.spancfg ∧ u.outbox = s.outbox ∧ u.pages = s.pages) && invCheck u
      | _ => false) = true := by decide +kernel
theorem witness_HomeEvents_finish : ∀ x ∈ ([(0, true), (0xFFFFFFFF00000000, true), (0xFFFFFFFF, true), (0x1000000000, false)] : List (Nat × Bool)),
    let s := { movingTo (2 ^ 26 + 6) 5 with migrht := BitVec.ofNat 64 x.1 }; let h := (s.migrht.extractLsb' 32 32).toNat;
    ((h + 2 ^ 32 - (s.migrht.extractLsb' 0 32).toNat) % 2 ^ 32 ≠ 2 ^ (s.migrel.extractLsb' 0 5).toNat ↔ x.2 = true)
    ∧ (match physWrite s 0 ((s.migrel.extractLsb' 12 40).toNat * 4096 + 8 * (h % 16)) 8 (4 * 65536) false false none with
      | (.done _, u) => decide (u.moves = s.moves ∧ u.pages = s.pages ∧ u.celltab = s.celltab ∧ u.cstate = s.cstate ∧ u.isolated = s.isolated
          ∧ u.spancfg = s.spancfg ∧ u.outbox = s.outbox ∧ u.migrht = s.migrht) && invCheck u
      | _ => false) = true := by decide +kernel
/-- Proposals with a back-pointer that is valid, or not, and a PTE that fits, or is not writable by a copy. -/
def proposed (bp pte : Nat) : State := { span with
  migctl := 1, migbpt := 0x50000, pages := [(4, 0x123456789ABC3FF)], mem := Mem.store (Mem.store [] 0x30000 8 pte) (0x50000 + 64) 16 bp, seq := 50 }
theorem witness_HomeEvents_start : (∀ x ∈ ([(0x30001, 0x40213), (0, 0x40213), (0x30001, 0x40013)] : List (Nat × Nat)), (proposed x.1 x.2).Inv)
    ∧ ∀ x ∈ ([(0x30001, 0x40213), (0, 0x40213), (0x30001, 0x40013)] : List (Nat × Nat)), let s := proposed x.1 x.2;
      localPage s 4 = true ∧ s.moves = [] ∧ s.migctl.getLsbD 0 = true ∧ (s.migbpt.extractLsb' 16 36).toNat * 65536 = 0x50000
      ∧ (match physRead s 0 0x50040 16 false false with
        | (.data d p, u) => decide (d.truncate 64 = BitVec.ofNat 64 x.1 ∧ p = false) && (match physRead u 0 0x30000 8 false false with
          | (.data e p, _) => decide (e.truncate 64 = BitVec.ofNat 64 x.2 ∧ p = false)
          | _ => false)
        | _ => false) = true := by
  refine ⟨fun x hx => inv_of ?_, by decide +kernel⟩
  revert x; decide +kernel
/-- The free ring of 16 entries at 0xA0000 with HEAD and TAIL. -/
def freePages (ht : Nat) : State := { span with migfht := BitVec.ofNat 64 ht, migfree := 0xA0004, mem := Mem.store [] 0xA0008 8 0x70000, seq := 50 }
theorem witness_HomeEvents_ring : (∀ x ∈ ([0x200000002, 0x200000001, 0x1000000000] : List Nat), (freePages x).Inv)
    ∧ ∀ x ∈ ([0x200000002, 0x200000001, 0x1000000000] : List Nat), let s := freePages x;
      let tail := (s.migfht.extractLsb' 0 32).toNat; let head := (s.migfht.extractLsb' 32 32).toNat;
      shunned s 1 = false ∧ shunned s 5 = true ∧ localPage s 4 = true ∧ localPage s (2 ^ 26) = false ∧ (List.replicate 512 (lineAt 0 1 7, true)).length = 512 ∧ (head = tail ↔ x = 0x200000002)
      ∧ ((head + 2 ^ 32 - tail) % 2 ^ 32 = 2 ^ (s.migfree.extractLsb' 0 5).toNat ↔ x = 0x1000000000)
      ∧ (takeExpired s (0xA0008 / 128) false).1 = none ∧ (takeExpired s (0xA0008 / 128) false).2 = s
      ∧ (match physRead s 0 0xA0008 8 false false with
        | (.data d p, _) => decide (d.truncate 64 = (0x70000 : Dword) ∧ p = false)
        | _ => false) = true
      ∧ (match physWrite s 0 0xA0000 8 (4 * 65536) false false none with
        | (.done _, _) => true
        | _ => false) = true := by
  refine ⟨fun x hx => inv_of ?_, by decide +kernel⟩
  revert x; decide +kernel
end Sys2Proof.Tests
end

section
/-! PROOFS. The scalar words of two sources (09 R215 to R217): one lemma on how they issue, and the arithmetic of their
results as the spec writes it. -/
namespace Sys2Proof.Machine

/-! ### Issue -/

/-- A word whose meaning is a binary scalar operation `f` writes `f` of its sources, poisoned when one of them is, and
changes nothing else (09 R214). -/
theorem exec_scalar2 {i : Instr} {s : State} {d a b : SReg} {f : Dword → Dword → Dword} {v : Dword}
    (hexec : exec i s = issue i.modes i.uses s fun s => scalar2 s d a b f)
    (hv : f (s.cur.getS a).v (s.cur.getS b).v = v) (hready : ready i s)
    (hmask : masks s.cur d = true → ((s.cur.getS a).p || (s.cur.getS b).p) = false) :
    exec i s = .next (retire s { s with cur := writeS s.cur d ⟨v, (s.cur.getS a).p || (s.cur.getS b).p⟩ }) := by
  subst hv
  rw [hexec, issue_of_ready hready]
  exact congrArg _ (conclude_putScalars hmask)

/-! ### Bit fields of a register -/

theorem bits_eq_extractLsb' {w : Nat} (x : BitVec w) (lo len : Nat) : bits x lo len = (x.extractLsb' lo len).toNat := by
  rw [BitVec.extractLsb'_toNat, Nat.shiftRight_eq_div_pow, bits]

theorem sfield_eq (y : Dword) : sfield y = ((y.extractLsb' 0 6).toNat, min (y.extractLsb' 8 7).toNat 64) := by
  rw [sfield, bits_eq_extractLsb', bits_eq_extractLsb']

/-- The mask of the w low bits (09 R217). -/
def fieldMask (w : Nat) : Dword := if w = 64 then 0xFFFFFFFFFFFFFFFF else ((1 : Dword) <<< w) - 1

theorem fieldMask_toNat {w : Nat} (h : w ≤ 64) : (fieldMask w).toNat = 2 ^ w - 1 := by
  obtain rfl | h : w = 64 ∨ w < 64 := by omega
  · rfl
  · have hpow : 2 ^ w < 2 ^ 64 := Nat.pow_lt_pow_right (by decide) h
    have hpos : 0 < 2 ^ w := Nat.two_pow_pos w
    rw [fieldMask, if_neg (by omega), BitVec.toNat_sub, BitVec.toNat_shiftLeft, Nat.shiftLeft_eq]
    change (2 ^ 64 - 1 + 1 * 2 ^ w % 2 ^ 64) % 2 ^ 64 = 2 ^ w - 1
    omega

theorem toNat_ushiftRight_and_fieldMask (x : Dword) (n : Nat) {w : Nat} (h : w ≤ 64) :
    ((x >>> n) &&& fieldMask w).toNat = x.toNat / 2 ^ n % 2 ^ w := by
  rw [BitVec.toNat_and, fieldMask_toNat h, Nat.and_two_pow_sub_one_eq_mod, BitVec.toNat_ushiftRight,
    Nat.shiftRight_eq_div_pow]

theorem sbfeu_eq (x y : Dword) : sbfeu x y = (x >>> (sfield y).1) &&& fieldMask (sfield y).2 := by
  have hw : (sfield y).2 ≤ 64 := Nat.min_le_right _ _
  rw [sbfeu, ← toNat_ushiftRight_and_fieldMask x _ hw, BitVec.ofNat_toNat, BitVec.setWidth_eq]

/-- A field moved to the top of the register has its bit w - 1 as the sign. -/
theorem toInt_shiftLeft_top {w : Nat} (hpos : 0 < w) (hw : w ≤ 64) (v : Dword) (hv : v.toNat < 2 ^ w) :
    (v <<< (64 - w)).toInt = sextInt w v.toNat * 2 ^ (64 - w) := by
  have hhalf : 2 * 2 ^ (w - 1) = 2 ^ w := by rw [← Nat.pow_succ', Nat.succ_eq_add_one, Nat.sub_add_cancel hpos]
  have htop : 2 ^ w * 2 ^ (64 - w) = 2 ^ 64 := by rw [← Nat.pow_add, Nat.add_sub_cancel' hw]
  have hlt : v.toNat * 2 ^ (64 - w) < 2 ^ 64 := htop ▸ Nat.mul_lt_mul_of_pos_right hv (Nat.two_pow_pos _)
  have hsign : 2 * (v.toNat * 2 ^ (64 - w)) < 2 ^ 64 ↔ v.toNat < 2 ^ (w - 1) := by
    rw [← htop, ← hhalf, Nat.mul_assoc, Nat.mul_lt_mul_left (by decide), Nat.mul_lt_mul_right (Nat.two_pow_pos _)]
  have htopInt : ((2 ^ 64 : Nat) : Int) = 2 ^ w * 2 ^ (64 - w) := mod_cast htop.symm
  rw [BitVec.toInt_eq_toNat_cond, BitVec.toNat_shiftLeft, Nat.shiftLeft_eq, Nat.mod_eq_of_lt hlt, sextInt,
    Nat.mod_eq_of_lt hv]
  simp only [hsign, htopInt]
  split
  · exact Int.natCast_mul _ _
  · rw [Int.sub_mul]; rfl

/-- Sign extension from bit w - 1 is a shift to the top of the register and back, with copies of the sign (09 R217). -/
theorem sext64_toNat {w : Nat} (hpos : 0 < w) (hw : w ≤ 64) (v : Dword) (hv : v.toNat < 2 ^ w) :
    sext64 w v.toNat = (v <<< (64 - w)).sshiftRight (64 - w) := by
  have hint : ((v <<< (64 - w)).sshiftRight (64 - w)).toInt = sextInt w v.toNat := by
    rw [BitVec.toInt_sshiftRight, toInt_shiftLeft_top hpos hw v hv, Int.shiftRight_eq_div_pow]
    exact Int.mul_ediv_cancel _ (Int.ne_of_gt (Int.pow_pos (by decide)))
  rw [sext64, ← hint, BitVec.ofInt_toInt]

theorem sbfe_eq (x y : Dword) : sbfe x y = if (sfield y).2 = 0 then 0 else
    (((x >>> (sfield y).1) &&& fieldMask (sfield y).2) <<< (64 - (sfield y).2)).sshiftRight (64 - (sfield y).2) := by
  have hw : (sfield y).2 ≤ 64 := Nat.min_le_right _ _
  simp only [sbfe, beq_iff_eq, sbfeu_eq]
  split
  · rfl
  · refine sext64_toNat (by omega) hw _ ?_
    rw [toNat_ushiftRight_and_fieldMask x _ hw]
    exact Nat.mod_lt _ (Nat.two_pow_pos _)

/-! ### Products -/

theorem extractLsb'_ofInt_high (z : Int) : (BitVec.ofInt 128 z).extractLsb' 64 64 = BitVec.ofInt 64 (z / 2 ^ 64) := by
  apply BitVec.eq_of_toNat_eq
  simp only [BitVec.extractLsb'_toNat, BitVec.toNat_ofInt, Nat.shiftRight_eq_div_pow]
  omega

theorem smulh_eq (x y : Dword) : smulh x y = (x.signExtend 128 * y.signExtend 128).extractLsb' 64 64 := by
  rw [BitVec.signExtend, BitVec.signExtend, ← BitVec.ofInt_mul, extractLsb'_ofInt_high, smulh]

theorem smulhu_eq (x y : Dword) : smulhu x y = (x.zeroExtend 128 * y.zeroExtend 128).extractLsb' 64 64 := by
  have hx : x.toNat % 2 ^ 128 = x.toNat := Nat.mod_eq_of_lt (by omega)
  have hy : y.toNat % 2 ^ 128 = y.toNat := Nat.mod_eq_of_lt (by omega)
  apply BitVec.eq_of_toNat_eq
  simp only [smulhu, BitVec.extractLsb'_toNat, BitVec.toNat_mul, BitVec.truncate_eq_setWidth, BitVec.toNat_setWidth, hx, hy,
    Nat.shiftRight_eq_div_pow, BitVec.toNat_ofNat]
  generalize x.toNat * y.toNat = m
  omega

/-! ### Division (09 R216) -/

theorem ofInt_tdiv (x y : Dword) : BitVec.ofInt 64 (x.toInt.tdiv y.toInt) = x.sdiv y := by
  apply BitVec.eq_of_toInt_eq
  rw [BitVec.toInt_sdiv, BitVec.toInt_ofInt]

theorem sdiv_eq (x y : Dword) : sdiv x y = if y = 0 then 0xFFFFFFFFFFFFFFFF else x.sdiv y := by
  simp only [sdiv, beq_iff_eq, ofInt_tdiv]
  rfl

theorem sdivu_eq (x y : Dword) : sdivu x y = if y = 0 then 0xFFFFFFFFFFFFFFFF else x / y := by
  simp only [sdivu, beq_iff_eq, BitVec.udiv_def]
  rfl

theorem srem_eq (x y : Dword) : srem x y = if y = 0 then x else x - y * x.sdiv y := by
  have h : BitVec.ofInt 64 (x.toInt.tmod y.toInt) = x - y * x.sdiv y := by
    rw [Int.tmod_def, Int.sub_eq_add_neg, BitVec.ofInt_add, BitVec.ofInt_neg, BitVec.ofInt_mul, ofInt_tdiv,
      BitVec.ofInt_toInt, BitVec.ofInt_toInt, BitVec.sub_eq_add_neg]
  simp only [srem, beq_iff_eq, h]

theorem sremu_eq (x y : Dword) : sremu x y = if y = 0 then x else x - y * (x / y) := by
  have h : BitVec.ofNat 64 (x.toNat % y.toNat) = x - y * (x / y) := by
    rw [BitVec.eq_sub_iff_add_eq]
    apply BitVec.eq_of_toNat_eq
    rw [BitVec.toNat_add, BitVec.toNat_ofNat, BitVec.toNat_mul, BitVec.toNat_udiv, ← Nat.add_mod, Nat.mod_add_div,
      Nat.mod_eq_of_lt x.isLt]
  simp only [sremu, beq_iff_eq, h]

/-! ### The statement -/

/-- Settles O1: each word is a binary scalar operation, and its result is the one that the spec writes. -/
theorem scalarTwoSource : Obligations.ScalarTwoSource := by
  intro s d a b x y p n w mask field
  have hn : bits y 0 6 = n := bits_eq_extractLsb' y 0 6
  have hfield : sfield y = (n, w) := sfield_eq y
  have hmin : (if x.slt y then x else y) = if x.toInt < y.toInt then x else y := by
    simp only [BitVec.slt_iff_toInt_lt]
  have hmax : (if x.slt y then y else x) = if x.toInt < y.toInt then y else x := by
    simp only [BitVec.slt_iff_toInt_lt]
  have hminu : (if x.ult y then x else y) = if x < y then x else y := by simp only [BitVec.ult_iff_lt]
  have hmaxu : (if x.ult y then y else x) = if x < y then y else x := by simp only [BitVec.ult_iff_lt]
  have hbfeu : sbfeu x y = field := by rw [sbfeu_eq, hfield]; rfl
  have hbfe : sbfe x y = if w = 0 then 0 else (field <<< (64 - w)).sshiftRight (64 - w) := by
    rw [sbfe_eq, hfield]; rfl
  simp only [List.forall_mem_cons]
  exact ⟨exec_scalar2 rfl rfl, exec_scalar2 rfl rfl, exec_scalar2 rfl rfl,
    exec_scalar2 rfl (smulh_eq x y), exec_scalar2 rfl (smulhu_eq x y),
    exec_scalar2 rfl (sdiv_eq x y), exec_scalar2 rfl (sdivu_eq x y),
    exec_scalar2 rfl (srem_eq x y), exec_scalar2 rfl (sremu_eq x y),
    exec_scalar2 rfl rfl, exec_scalar2 rfl rfl, exec_scalar2 rfl rfl, exec_scalar2 rfl rfl,
    exec_scalar2 rfl (congrArg (x <<< ·) hn), exec_scalar2 rfl (congrArg (x >>> ·) hn),
    exec_scalar2 rfl (congrArg x.sshiftRight hn),
    exec_scalar2 rfl hmin, exec_scalar2 rfl hmax, exec_scalar2 rfl hminu, exec_scalar2 rfl hmaxu,
    exec_scalar2 rfl hbfeu, exec_scalar2 rfl hbfe, List.forall_mem_nil _⟩

end Sys2Proof.Machine
end

section
/-! PROOFS. The words that write lanes or predicates: what each comes to when it is ready (10 R244, R245). -/
namespace Sys2Proof.Machine

/-- When it is ready, the word i writes f to the active lanes of d, and does nothing else (06 R154, 10 R244). -/
def WritesLanes (s : State) (d : VReg) (i : Instr) (f : Nat → Lane) : Prop :=
  ready i s → exec i s = .next (retire s { s with cur := s.cur.putV d f })

/-- Likewise for the active lanes of the pair from d (06 R154, 10 R244). -/
def WritesPairs (s : State) (d : VReg) (i : Instr) (f : Nat → SVal) : Prop :=
  ready i s → exec i s = .next (retire s { s with cur := s.cur.putV2 d f })

/-- Likewise for the active lanes of the predicate d (10 R245). -/
def WritesPred (s : State) (d : PReg) (i : Instr) (f : Nat → Bool × Bool) : Prop :=
  ready i s → exec i s = .next (retire s { s with cur := s.cur.putP d f })

section
variable {i : Instr} {s : State}

theorem writesLanes_of_vecWrite {d : VReg} {f : Thread → Nat → Lane} {g : Nat → Lane}
    (hexec : exec i s = issue i.modes i.uses s fun s => vecWrite s d f) (hg : ∀ L, f s.cur L = g L) :
    WritesLanes s d i g := by
  intro hready
  rw [hexec, issue_of_ready hready, conclude_vecWrite, funext hg]

theorem writesPairs_of_pairWrite {d : VReg} {f : Thread → Nat → SVal} {g : Nat → SVal}
    (hexec : exec i s = issue i.modes i.uses s fun s => pairWrite s d f) (hg : ∀ L, f s.cur L = g L) :
    WritesPairs s d i g := by
  intro hready
  rw [hexec, issue_of_ready hready, conclude_pairWrite, funext hg]

theorem writesPred_of_predWrite {d : PReg} {f : Thread → Nat → Bool × Bool} {g : Nat → Bool × Bool}
    (hexec : exec i s = issue i.modes i.uses s fun s => predWrite s d f) (hg : ∀ L, f s.cur L = g L) :
    WritesPred s d i g := by
  intro hready
  rw [hexec, issue_of_ready hready, predWrite, conclude_ok, funext hg]

end

end Sys2Proof.Machine
end

section
/-! PROOFS. The integer words over lanes (10 R247 to R249): the functions of one lane, as the spec writes them. -/
namespace Sys2Proof.Machine

/-! ### Results of a lane -/

theorem laneOf_eq (v : Word) (p : Bool) : laneOf v p = ⟨if p then 0 else v, p⟩ := by cases p <;> rfl

theorem pairOf_eq (v : Dword) (p : Bool) : pairOf v p = ⟨if p then 0 else v, p⟩ := by cases p <;> rfl

/-- A function of the pairs of A and B in lane L, poison first (10 R247). -/
def pairLanes (t : Thread) (a : VReg) (b : XOpnd) (f : Dword → Dword → Dword) (L : Nat) : SVal :=
  let p := (t.getV2 a L).p || (t.getX64 b L).p
  ⟨if p then 0 else f (t.getV2 a L).v (t.getX64 b L).v, p⟩

/-! ### Products -/

theorem mulh_eq (x y : Word) :
    BitVec.ofInt 32 (x.toInt * y.toInt / 2 ^ 32) = (x.signExtend 64 * y.signExtend 64).extractLsb' 32 32 := by
  rw [BitVec.signExtend, BitVec.signExtend, ← BitVec.ofInt_mul]
  apply BitVec.eq_of_toNat_eq
  simp only [BitVec.extractLsb'_toNat, BitVec.toNat_ofInt, Nat.shiftRight_eq_div_pow]
  omega

theorem mulhu_eq (x y : Word) :
    BitVec.ofNat 32 (x.toNat * y.toNat / 2 ^ 32) = (x.zeroExtend 64 * y.zeroExtend 64).extractLsb' 32 32 := by
  have hx : x.toNat % 2 ^ 64 = x.toNat := Nat.mod_eq_of_lt (by omega)
  have hy : y.toNat % 2 ^ 64 = y.toNat := Nat.mod_eq_of_lt (by omega)
  have hlt : x.toNat * y.toNat < 2 ^ 64 := Nat.mul_lt_mul'' (a := x.toNat) (c := 2 ^ 32) x.isLt y.isLt
  apply BitVec.eq_of_toNat_eq
  simp only [BitVec.extractLsb'_toNat, BitVec.toNat_mul, BitVec.truncate_eq_setWidth, BitVec.toNat_setWidth, hx, hy,
    Nat.mod_eq_of_lt hlt, Nat.shiftRight_eq_div_pow, BitVec.toNat_ofNat]

/-! ### Counts of bits -/

theorem clz_succ (n v : Nat) : clz (n + 1) v = if v.testBit n then 0 else 1 + clz n v := rfl

/-- The model's count from bit n down, and the library's. -/
theorem clzAuxRec_eq_clz {w : Nat} (x : BitVec w) (n : Nat) (hn : n < w) :
    x.clzAuxRec n = BitVec.ofNat w (w - 1 - n + clz (n + 1) x.toNat) := by
  induction n with
  | zero =>
    have hw : w - 1 + 1 = w := Nat.sub_add_cancel hn
    rw [BitVec.clzAuxRec_zero, clz_succ, clz, BitVec.getLsbD]
    split
    · rfl
    · rw [Nat.sub_zero, hw]
  | succ n ih =>
    have hstep : w - 1 - n = w - 1 - (n + 1) + 1 := by omega
    rw [BitVec.clzAuxRec_succ, ih (by omega), clz_succ (n + 1), BitVec.getLsbD, hstep]
    split
    · rfl
    · rw [Nat.add_assoc]

theorem ofNat_clz {w : Nat} (hw : 0 < w) (x : BitVec w) : BitVec.ofNat w (clz w x.toNat) = x.clz := by
  obtain ⟨n, rfl⟩ : ∃ n, w = n + 1 := ⟨w - 1, by omega⟩
  rw [BitVec.clz, Nat.add_sub_cancel, clzAuxRec_eq_clz x n (Nat.lt_succ_self n), Nat.add_sub_cancel, Nat.sub_self, Nat.zero_add]

/-- The count, the highest bit last. -/
theorem popc_succ (n v : Nat) : popc (n + 1) v = popc n v + (v.testBit n).toNat := by
  induction n generalizing v with
  | zero => rw [Nat.toNat_testBit, popc, popc, popc, Nat.pow_zero, Nat.div_one, Nat.add_comm]
  | succ n ih => rw [popc, ih, popc, Nat.testBit_succ, Nat.add_assoc]

theorem cpopNatRec_eq_popc {w : Nat} (x : BitVec w) (n acc : Nat) : x.cpopNatRec n acc = acc + popc n x.toNat := by
  induction n generalizing acc with
  | zero => rfl
  | succ n ih => rw [BitVec.cpopNatRec_succ, ih, popc_succ, BitVec.getLsbD, Nat.add_assoc, Nat.add_comm (popc _ _)]

theorem ofNat_popc {w : Nat} (x : BitVec w) : BitVec.ofNat w (popc w x.toNat) = x.cpop := by
  rw [BitVec.cpop, cpopNatRec_eq_popc, Nat.zero_add]

theorem brev_lt (n v : Nat) : brev n v < 2 ^ n := by
  induction n generalizing v with
  | zero => exact Nat.one_pos
  | succ n ih =>
    have hrest := ih (v / 2)
    obtain h | h := Nat.mod_two_eq_zero_or_one v <;> rw [brev, h, Nat.pow_succ] <;> omega

theorem testBit_brev (n v i : Nat) (hi : i < n) : (brev n v).testBit i = v.testBit (n - 1 - i) := by
  induction n generalizing v with
  | zero => omega
  | succ n ih =>
    rw [brev, Nat.mul_comm, Nat.testBit_two_pow_mul_add _ (brev_lt n _)]
    split
    next hlt =>
      have hsub : n + 1 - 1 - i = n - 1 - i + 1 := by omega
      rw [ih _ hlt, hsub, Nat.testBit_succ]
    next hge =>
      obtain rfl : i = n := by omega
      rw [Nat.sub_self, Nat.add_sub_cancel, Nat.sub_self, Nat.testBit_zero, Nat.testBit_zero, Nat.mod_mod]

theorem ofNat_brev {w : Nat} (x : BitVec w) : BitVec.ofNat w (brev w x.toNat) = x.reverse := by
  apply BitVec.eq_of_getLsbD_eq
  intro i hi
  rw [BitVec.getLsbD_ofNat, testBit_brev _ _ _ hi, BitVec.getLsbD_reverse, BitVec.getMsbD, BitVec.getLsbD]

/-! ### Fields -/

theorem vfield_eq (y : Word) : vfield y = ((y.extractLsb' 0 5).toNat, min (y.extractLsb' 8 6).toNat 32) := by
  rw [vfield, bits_eq_extractLsb', bits_eq_extractLsb']

/-- The mask of the w low bits, for a field of at most 32 (10 R248). -/
def wordMask (w : Nat) : Word := if w = 32 then 0xFFFFFFFF else ((1 : Word) <<< w) - 1

theorem ofNat_two_pow_sub_one {w : Nat} (hw : w ≤ 32) : BitVec.ofNat 32 (2 ^ w - 1) = wordMask w := by
  have hall : ∀ w < 33, BitVec.ofNat 32 (2 ^ w - 1) = wordMask w := by decide
  exact hall w (by omega)

theorem vfield_width_le (y : Word) : (vfield y).2 ≤ 32 := Nat.min_le_right _ _

/-- A shift and a mask take a field out. -/
theorem toNat_field {n : Nat} (x : BitVec n) (p : Nat) {w : Nat} (hw : w ≤ n) :
    ((x >>> p) &&& BitVec.ofNat n (2 ^ w - 1)).toNat = x.toNat / 2 ^ p % 2 ^ w := by
  have hle : 2 ^ w ≤ 2 ^ n := Nat.pow_le_pow_right (by decide) hw
  have hpos : 0 < 2 ^ w := Nat.two_pow_pos w
  rw [BitVec.toNat_and, BitVec.toNat_ofNat, Nat.mod_eq_of_lt (by omega), Nat.and_two_pow_sub_one_eq_mod,
    BitVec.toNat_ushiftRight, Nat.shiftRight_eq_div_pow]

theorem vbfeu_eq (x y : Word) : vbfeu x y = (x >>> (vfield y).1) &&& wordMask (vfield y).2 := by
  have hw := vfield_width_le y
  rw [vbfeu, ← toNat_field x _ hw, BitVec.ofNat_toNat, BitVec.setWidth_eq, ofNat_two_pow_sub_one hw]

/-! ### Signs -/

theorem sextInt_eq_toInt (w v : Nat) : sextInt w v = (BitVec.ofNat w v).toInt := by
  have hhalf : 2 * (v % 2 ^ w) < 2 ^ w ↔ v % 2 ^ w < 2 ^ (w - 1) := by
    cases w with
    | zero => rw [Nat.pow_zero, Nat.mod_one]
    | succ w => rw [Nat.pow_succ', Nat.mul_lt_mul_left (by decide)]; rfl
  rw [BitVec.toInt_eq_toNat_cond, BitVec.toNat_ofNat, sextInt]
  simp only [hhalf, Int.ofNat_eq_natCast, Int.natCast_pow, Int.cast_ofNat_Int]

/-- What the model's sign extension of the w low bits is in the library. -/
theorem ofInt_sextInt (n w v : Nat) : BitVec.ofInt n (sextInt w v) = (BitVec.ofNat w v).signExtend n := by
  rw [sextInt_eq_toInt, BitVec.signExtend]

theorem ofInt_sextInt_toNat {w : Nat} (n : Nat) (x : BitVec w) : BitVec.ofInt n (sextInt w x.toNat) = x.signExtend n := by
  rw [ofInt_sextInt, BitVec.ofNat_toNat, BitVec.setWidth_eq]

theorem ofInt_natCast_toNat {w : Nat} (n : Nat) (x : BitVec w) : BitVec.ofInt n (Int.ofNat x.toNat) = x.zeroExtend n := by
  rw [Int.ofNat_eq_natCast, BitVec.ofInt_natCast, BitVec.ofNat_toNat]

/-- Sign extension of the w low bits is a shift to the top and back, with copies of the sign (10 R248). -/
theorem signExtend_setWidth {n w : Nat} (hw : w ≤ n) (x : BitVec n) :
    (x.setWidth w).signExtend n = (x <<< (n - w)).sshiftRight (n - w) := by
  apply BitVec.eq_of_getLsbD_eq
  intro i hi
  have hge : ¬ n ≤ i := Nat.not_le.mpr hi
  have hshift : ¬ n - w + i < n - w := by omega
  simp only [BitVec.getLsbD_signExtend, BitVec.getLsbD_sshiftRight, BitVec.msb_eq_getLsbD_last, BitVec.getLsbD_setWidth,
    BitVec.getLsbD_shiftLeft, hi, hge, hshift, decide_true, decide_false, Bool.not_false, Bool.true_and]
  by_cases hlow : i < w
  · have hin : n - w + i < n := by omega
    have hback : n - w + i - (n - w) = i := by omega
    simp only [hlow, hin, hback, if_true, decide_true, Bool.true_and]
  · have hout : ¬ n - w + i < n := by omega
    have hlast : n - 1 < n := by omega
    have hback : n - 1 - (n - w) = w - 1 := by omega
    have hsame : w - 1 < w ↔ ¬ n - 1 < n - w := by omega
    simp only [hlow, hout, hlast, hback, hsame, if_false, decide_true, decide_not, Bool.true_and]

theorem vbfe_eq (x y : Word) : vbfe x y = if (vfield y).2 = 0 then 0 else
    (vbfeu x y <<< (32 - (vfield y).2)).sshiftRight (32 - (vfield y).2) := by
  simp only [vbfe, beq_iff_eq, ofInt_sextInt, BitVec.ofNat_toNat, signExtend_setWidth (vfield_width_le y)]

theorem vbfi_eq (z x y : Word) : vbfi z x y = (z &&& ~~~(wordMask (vfield y).2 <<< (vfield y).1)) |||
    ((x &&& wordMask (vfield y).2) <<< (vfield y).1) := by
  rw [vbfi, ofNat_two_pow_sub_one (vfield_width_le y)]

/-! ### Sums of products of bytes -/

/-- The sum that VDP4 and VDP4U add to D, each byte extended by `ext` (10 R247). -/
def byteDot (ext : Byte → Word) (z x y : Word) : Word := z
  + ext (x.extractLsb' 0 8) * ext (y.extractLsb' 0 8) + ext (x.extractLsb' 8 8) * ext (y.extractLsb' 8 8)
  + ext (x.extractLsb' 16 8) * ext (y.extractLsb' 16 8) + ext (x.extractLsb' 24 8) * ext (y.extractLsb' 24 8)

theorem dp4_eq {f : Nat → Int} {ext : Byte → Word} (h : ∀ v : Byte, BitVec.ofInt 32 (f v.toNat) = ext v) (z x y : Word) :
    dp4 f z x y = byteDot ext z x y := by
  have hzero : BitVec.ofInt 32 0 = 0#32 := rfl
  simp only [dp4, byteDot, List.range, List.range.loop, List.foldl_cons, List.foldl_nil, bits_eq_extractLsb', BitVec.ofInt_add,
    BitVec.ofInt_mul, h, hzero, BitVec.zero_add, BitVec.add_assoc]

/-! ### The statement -/

/-- Settles O22: each word writes a function of its operands to the active lanes, and the function is the one that the spec
writes. -/
theorem vectorInteger : Obligations.VectorInteger := by
  refine ⟨?_, ?_⟩
  · intro s d a b i t res one two three pos w mask field bytes
    have row1 {j f g} (hexec : exec j s = issue j.modes j.uses s fun s => vec1 s d a f) (hfg : ∀ x, f x = g x) :
        WritesLanes s d j (one g) := writesLanes_of_vecWrite hexec fun _ => by rw [laneOf_eq, hfg]
    have row2 {j f g} (hexec : exec j s = issue j.modes j.uses s fun s => vec2 s d a b f) (hfg : ∀ x y, f x y = g x y) :
        WritesLanes s d j (two g) := writesLanes_of_vecWrite hexec fun _ => by rw [laneOf_eq, hfg]
    have row3 {j f g} (hexec : exec j s = issue j.modes j.uses s fun s => vec3 s d a b f) (hfg : ∀ z x y, f z x y = g z x y) :
        WritesLanes s d j (three g) := writesLanes_of_vecWrite hexec fun _ => by rw [laneOf_eq, hfg]
    -- row1 to row3 say all that the table needs: the rows match by name, and not by what the names stand for
    clear_value one two three
    have hpos (y : Word) : bits y 0 5 = pos y := bits_eq_extractLsb' y 0 5
    have hfield (y : Word) : vfield y = (pos y, w y) := vfield_eq y
    have hbfeu (x y : Word) : vbfeu x y = field x y := by rw [vbfeu_eq, hfield]; rfl
    have hbfe (x y : Word) : vbfe x y = if w y = 0 then 0 else (field x y <<< (32 - w y)).sshiftRight (32 - w y) := by
      rw [vbfe_eq, hfield, hbfeu]
    have hbfi (z x y : Word) : vbfi z x y = (z &&& ~~~(mask y <<< pos y)) ||| ((x &&& mask y) <<< pos y) := by
      rw [vbfi_eq, hfield]; rfl
    have hmin (x y : Word) : (if x.slt y then x else y) = if x.toInt < y.toInt then x else y := by
      simp only [BitVec.slt_iff_toInt_lt]
    have hmax (x y : Word) : (if x.slt y then y else x) = if x.toInt < y.toInt then y else x := by
      simp only [BitVec.slt_iff_toInt_lt]
    have hminu (x y : Word) : (if x.ult y then x else y) = if x < y then x else y := by simp only [BitVec.ult_iff_lt]
    have hmaxu (x y : Word) : (if x.ult y then y else x) = if x < y then y else x := by simp only [BitVec.ult_iff_lt]
    have habs (x : Word) : (if x.msb then 0 - x else x) = if x.toInt < 0 then 0 - x else x := by
      simp only [BitVec.msb_eq_toInt, decide_eq_true_eq]
    change ∀ row ∈ (_ : List (Instr × (Nat → Lane))), WritesLanes s d row.1 row.2
    simp only [List.forall_mem_cons]
    exact ⟨row2 rfl fun _ _ => rfl, row2 rfl fun _ _ => rfl, row2 rfl fun _ _ => rfl,
      row2 rfl mulh_eq, row2 rfl mulhu_eq, row3 rfl fun _ _ _ => rfl,
      row2 rfl fun _ _ => rfl, row2 rfl fun _ _ => rfl, row2 rfl fun _ _ => rfl, row2 rfl fun _ _ => rfl,
      row2 rfl fun x y => congrArg (x <<< ·) (hpos y), row2 rfl fun x y => congrArg (x >>> ·) (hpos y),
      row2 rfl fun x y => congrArg x.sshiftRight (hpos y),
      row2 rfl hmin, row2 rfl hminu, row2 rfl hmax, row2 rfl hmaxu,
      row1 rfl habs, row1 rfl fun _ => rfl,
      row1 rfl (ofNat_clz (by decide)), row1 rfl ofNat_popc, row1 rfl ofNat_brev,
      row2 rfl hbfeu, row2 rfl hbfe, row3 rfl hbfi,
      row3 rfl (dp4_eq (ofInt_sextInt_toNat 32)), row3 rfl (dp4_eq fun v => ofInt_natCast_toNat 32 v),
      writesLanes_of_vecWrite rfl fun _ => rfl, writesLanes_of_vecWrite rfl fun _ => by rw [ofInt_sextInt_toNat],
      List.forall_mem_nil _⟩
  · intro s d a b t n
    have hn (y : Dword) : bits y 0 6 = n y := bits_eq_extractLsb' y 0 6
    have row {j f g} (hexec : exec j s = issue j.modes j.uses s fun s => pair2 s d a b f) (hfg : ∀ x y, f x y = g x y) :
        WritesPairs s d j (pairLanes t a b g) := writesPairs_of_pairWrite hexec fun _ => by rw [pairOf_eq, hfg]; rfl
    change ∀ row ∈ (_ : List (Instr × (Dword → Dword → Dword))), WritesPairs s d row.1 (pairLanes t a b row.2)
    simp only [List.forall_mem_cons]
    exact ⟨row rfl fun _ _ => rfl, row rfl fun _ _ => rfl, row rfl fun _ _ => rfl,
      row rfl fun x y => congrArg (x <<< ·) (hn y), row rfl fun x y => congrArg (x >>> ·) (hn y),
      row rfl fun x y => congrArg x.sshiftRight (hn y), List.forall_mem_nil _⟩

end Sys2Proof.Machine
end

section
/-! PROOFS. Compares and predicate logic (10 R259, R260). -/
namespace Sys2Proof.Machine

/-- Settles O28: each word writes a bit and its P to the active lanes, and the relation is the one that the spec writes. -/
theorem comparesAndPredicates : Obligations.ComparesAndPredicates := by
  intro s d a b v x w t i32 i64 f32 f64 eq p psn logic
  have int32 {j f g} (hexec : exec j s = issue j.modes j.uses s fun s => icmp s d v x f) (hfg : ∀ x y, f x y = g x y) :
      WritesPred s d j (i32 g) := writesPred_of_predWrite hexec fun _ => by rw [hfg]
  have int64 {j f g} (hexec : exec j s = issue j.modes j.uses s fun s => icmp64 s d v x f) (hfg : ∀ x y, f x y = g x y) :
      WritesPred s d j (i64 g) := writesPred_of_predWrite hexec fun _ => by rw [hfg]
  have fp32 {j f g} (hexec : exec j s = issue j.modes j.uses s fun s => fcmp s d v x f) (hfg : ∀ x y, f x y = g x y) :
      WritesPred s d j (f32 g) := writesPred_of_predWrite hexec fun _ => by rw [hfg]
  have fp64 {j f g} (hexec : exec j s = issue j.modes j.uses s fun s => dcmp s d v x f) (hfg : ∀ x y, f x y = g x y) :
      WritesPred s d j (f64 g) := writesPred_of_predWrite hexec fun _ => by rw [hfg]
  have preds {j f g} (hexec : exec j s = issue j.modes j.uses s fun s => plogic s d a b f) (hfg : ∀ x y, f x y = g x y) :
      WritesPred s d j (logic g) := writesPred_of_predWrite hexec fun _ => by rw [hfg]; rfl
  -- the rows below match by name
  clear_value i32 i64 f32 f64 logic
  refine ⟨?_, writesLanes_of_vecWrite (f := fun t L => ⟨if (t.getPL a L).1 then 1 else 0, (t.getPL a L).2⟩) rfl fun _ => rfl⟩
  change ∀ row ∈ (_ : List (Instr × (Nat → Bool × Bool))), WritesPred s d row.1 row.2
  simp only [List.forall_mem_cons]
  exact ⟨int32 rfl fun _ _ => rfl, int32 rfl fun _ _ => rfl,
    int32 rfl fun _ _ => BitVec.slt_eq_decide, int32 rfl fun _ _ => BitVec.sle_eq_decide,
    int32 rfl fun _ _ => BitVec.ult_eq_decide_lt, int32 rfl fun _ _ => BitVec.ule_eq_decide_le,
    int64 rfl fun _ _ => rfl, int64 rfl fun _ _ => BitVec.slt_eq_decide, int64 rfl fun _ _ => BitVec.ult_eq_decide_lt,
    fp32 rfl fun _ _ => rfl, fp32 rfl fun _ _ => rfl, fp32 rfl fun _ _ => rfl, fp32 rfl fun _ _ => rfl, fp32 rfl fun _ _ => rfl,
    fp64 rfl fun _ _ => rfl, fp64 rfl fun _ _ => rfl, fp64 rfl fun _ _ => rfl, fp64 rfl fun _ _ => rfl, fp64 rfl fun _ _ => rfl,
    preds rfl fun _ _ => rfl, preds rfl fun _ _ => rfl, preds rfl fun _ _ => rfl, preds rfl fun _ _ => rfl,
    writesPred_of_predWrite rfl fun _ => rfl, writesPred_of_predWrite rfl fun _ => rfl,
    writesPred_of_predWrite rfl fun _ => rfl, List.forall_mem_nil _⟩

end Sys2Proof.Machine
end
